-- ==== Sys2Proof/Word.lean ====
section
/-! DEFINITION. The two word types of the FPE: the byte of a buffer and the 32-bit word of the host bus
(spec/00_scope.md rules R8 and R9). -/

namespace Sys2Proof

/-- A byte: 8 bits, value 0..255 (R9). -/
abbrev Byte := BitVec 8

/-- A host-bus data word, a control register as read, or a command word: `HOST_DATA_BITS` = 32 (R8). -/
abbrev Word := BitVec 32

/-- A host-bus byte address: `HOST_ADDR_BITS` = 12 (R8, R70). -/
abbrev HostAddr := BitVec 12

end Sys2Proof
end

