-- ==== Sys2Proof/Config.lean ====
section
/-! DEFINITION. The parameters of spec/00_scope.md rule R8: constants of this hardware, and the values the spec
leaves to the platform or to the link, which stand here as constants without a body. -/

namespace Sys2Proof

/-- Bytes in each of STAGE, TXBUF and RXBUF (R8, R48 to R50). -/
def Config.bufSize : Nat := 256

/-- Largest codec field width in bytes (R8, R120). -/
def Config.maxWidth : Nat := 8

/-- Load-dialect sync byte (R8, R106). -/
def Config.loadSync : Byte := 0xAA#8

/-- Load-dialect frame length (R8, R106). -/
def Config.loadFrameLen : Nat := 26

/-- Meter start delimiter, the ASCII code of the opening brace (R8, R108). -/
def Config.meterSof : Byte := 0x7B#8

/-- Meter end delimiter, the ASCII code of the closing brace (R8, R108). -/
def Config.meterEof : Byte := 0x7D#8

/-- The constant the ID register holds (R8, R25). -/
def Config.idValue : Word := 0x46504531#32

/-- One entry of `BAUD_TABLE` (R8): the baud rate and the minimum poll delay in clock ticks, at least 1. -/
structure BaudEntry where
  baudRate : Nat
  pollDelay : ℕ+
deriving Inhabited

/-- The parameter `BAUD_TABLE` of R8, 8 entries indexed by `LINK_CFG.BAUD_SEL`. No source gives its values
(91_not_in_source.md N9; 93_implementation_defined.md S6), so nothing here does: assumption 1. -/
opaque Config.baudTable : BitVec 3 → BaudEntry

/-- The link's answer to the `k`-th poll of a run, for a poll beyond the answers the environment lists: an oracle
draw, any finite byte list (R176; 93_implementation_defined.md P15). A free value: assumption 2. -/
opaque Config.linkAnswer : Nat → List Byte

end Sys2Proof
end

