-- ==== Sys2Proof/Syntax.lean ====
section
/-! DEFINITION. The syntax of the FPE's operations: the ten commands (spec/opcode_table.json), the control registers,
the host-bus accesses, and the events of the environment that the total order of steps is made of. -/

namespace Sys2Proof

/-- The ten commands of R101. A command word has no operand fields: every operand is a register (R100, R105). -/
inductive Instr where
  /-- ENCODE, code 0x01 (R121). -/
  | encode
  /-- DECODE, code 0x02 (R125). -/
  | decode
  /-- CKSUM, code 0x03 (R141). -/
  | cksum
  /-- BUILD_LOAD, code 0x10 (R151). -/
  | buildLoad
  /-- BUILD_METER, code 0x11 (R152). -/
  | buildMeter
  /-- SEND, code 0x20 (R173). -/
  | send
  /-- RECV, code 0x21 (R174). -/
  | recv
  /-- QUERY, code 0x22 (R175). -/
  | query
  /-- PARSE_LOAD, code 0x30 (R201). -/
  | parseLoad
  /-- PARSE_METER, code 0x31 (R206). -/
  | parseMeter
deriving DecidableEq, Repr

/-- The 23 control and status registers of R25 to R47, in the order of their offsets. -/
inductive Reg where
  | id | ctrl | status | cmd | fault | codecCfg | scale | valueLo | valueHi | rawLo | rawHi | dvalLo | dvalHi
  | cksCfg | cks | addr | oplen | txlen | rxlen | linkCfg | retryCnt | parseCfg | result
deriving DecidableEq, Repr

/-- The three buffers of R48 to R50. -/
inductive BufId where
  | stage | txbuf | rxbuf
deriving DecidableEq, Repr

/-- The size of a host access: 1, 2 or 4 bytes. No other size can be expressed on the bus (R72). -/
inductive BusSize where
  | byte | half | word
deriving DecidableEq, Repr

/-- One host-bus access (R6, R74, R75). Only the low `8 · size` bits of a write's data are used. -/
inductive Access where
  | read (a : HostAddr) (n : BusSize)
  | write (a : HostAddr) (n : BusSize) (v : Word)
deriving DecidableEq, Repr

/-- One step of the total order of R85, as the environment chooses it: a host access, an engine step, a tick of
`clk` (R90), or an assertion of `rst` (R250). -/
inductive Event where
  | host (a : Access)
  | engine
  | tick
  | reset
deriving DecidableEq, Repr

end Sys2Proof
end

