-- ==== Sys2Proof/WellFormed.lean ====
section
/-! DEFINITION. Which command words are legal (R102) and which instructions are well formed. A command has no operand
field, so every `Instr` is well formed; the checks are on the 32-bit word: RSVD is 0 and CODE is one of the ten. -/

namespace Sys2Proof

/-- The ten codes of R101. -/
def legalCodes : List (BitVec 8) :=
  [0x01#8, 0x02#8, 0x03#8, 0x10#8, 0x11#8, 0x20#8, 0x21#8, 0x22#8, 0x30#8, 0x31#8]

/-- RSVD, bits 31:8, is 0 (R100). -/
def reservedZero (w : Word) : Bool := w.extractLsb' 8 24 == 0#24

/-- CODE, bits 7:0, is in the table of R101. -/
def codeKnown (w : Word) : Bool := legalCodes.contains (w.extractLsb' 0 8)

/-- A legal command word: the complement of R102's illegal words. -/
def wellFormedWord (w : Word) : Bool := reservedZero w && codeKnown w

/-- Every instruction is well formed: no command has an operand field (R100). -/
def Instr.wf (_ : Instr) : Bool := true

end Sys2Proof
end

