-- ==== Sys2Proof/Decode.lean ====
section
/-! DEFINITION. The decoder of command words (R100 to R104), total on every 32-bit word and rejecting by name, and the
encoder, each written from the code table of R101. -/

namespace Sys2Proof

/-- Why a command word is ILLEGAL (R102). -/
inductive DecodeError where
  /-- RSVD, bits 31:8, is not 0. -/
  | reservedNonzero
  /-- CODE, bits 7:0, is not in the table of R101. -/
  | unknownCode (code : BitVec 8)
deriving DecidableEq, Repr

/-- The code table of R101, from CODE to command. -/
def commandOfCode (code : BitVec 8) : Option Instr :=
  if code = 0x01#8 then some .encode
  else if code = 0x02#8 then some .decode
  else if code = 0x03#8 then some .cksum
  else if code = 0x10#8 then some .buildLoad
  else if code = 0x11#8 then some .buildMeter
  else if code = 0x20#8 then some .send
  else if code = 0x21#8 then some .recv
  else if code = 0x22#8 then some .query
  else if code = 0x30#8 then some .parseLoad
  else if code = 0x31#8 then some .parseMeter
  else none

/-- `decode(w)` of R103: the command when bits 31:8 are 0 and bits 7:0 are a CODE, and otherwise ILLEGAL. -/
def decodeWord (w : Word) : Except DecodeError Instr :=
  if w.extractLsb' 8 24 = 0#24 then
    match commandOfCode (w.extractLsb' 0 8) with
    | some i => .ok i
    | none => .error (.unknownCode (w.extractLsb' 0 8))
  else .error .reservedNonzero

/-- The CODE of a command (R101). -/
def codeOf (i : Instr) : BitVec 8 :=
  match i with
  | .encode => 0x01#8
  | .decode => 0x02#8
  | .cksum => 0x03#8
  | .buildLoad => 0x10#8
  | .buildMeter => 0x11#8
  | .send => 0x20#8
  | .recv => 0x21#8
  | .query => 0x22#8
  | .parseLoad => 0x30#8
  | .parseMeter => 0x31#8

/-- The one word of a command: CODE in bits 7:0 and RSVD = 0 (R100). -/
def encodeWord (i : Instr) : Word := 0#24 ++ codeOf i

/-- The words of an instruction; every command is one word long (R104). -/
def encode (i : Instr) : List Word := [encodeWord i]

/-- The command word whose bits are `w`, of which the opcode table gives `nbits`: bit 0 of the number is bit 0 of the
word, and every bit from `nbits` up is 0. -/
def tableWord (nbits w : Nat) : Word := BitVec.ofNat 32 (w % 2 ^ nbits)

/-- What the decoder reads from an opcode-table row's bits. The word goes to CMD as one aligned 32-bit write, so there
is no byte order to choose (R100). -/
def decodeTableWord (nbits w : Nat) : Option Instr :=
  match decodeWord (tableWord nbits w) with
  | .ok i => some i
  | .error _ => none

end Sys2Proof
end

