-- ==== Sys2Proof/Machine/State.lean ====
section
/-! DEFINITION. The state of the FPE (spec/10_state.md rules R20 to R57) as plain data, its reset values (R54), and the
reasons a step could stop. -/

namespace Sys2Proof.Machine

open Sys2Proof

/-- A machine fault: a step the machine cannot take. THE FPE HAS NONE, so the type has no constructor. Every command
ends by completing or by an FPE fault (`FaultCause`), after which the FPE is idle and goes on (R220, R228), and a bus
error is a response to the host that changes no state (R73). Safe: nothing can stop a run. -/
inductive Fault : Type
deriving DecidableEq, Repr

/-- A step the model declines to take. -/
inductive Refusal where
  /-- Raised by `exec`'s arm of an instruction that has no meaning yet. No arm raises it: all ten commands have their
  meaning. Safe: a run would stop. -/
  | notModelled (mnemonic : String)
deriving DecidableEq, Repr

/-- `FAULT.CAUSE` (R225). Codes outside the table are never produced, and are left out (93 P14). -/
inductive FaultCause where
  | none | illegalCmd | cfgWidth | cfgScale | cfgOvf | cfgBuf | range | encNotFinite | encOverflow
  | buildOplen | buildCapacity | buildAddr | timeout | rxOverrun | response
deriving DecidableEq, Repr

/-- `STATUS.STATE` (R28). Value 7 is never produced, and is left out (93 P14). -/
inductive LinkState where
  | idle | sent | waiting | draining | received | timeout | overrun
deriving DecidableEq, Repr

/-- `RESULT.KIND` (R45). Values 11 to 14 are never produced, and are left out (93 P14). -/
inductive Kind where
  | success | checksumError | parameterError | notExecutable | invalidCommand | unknownCommand | unknownError
  | fail | ioError | echoMismatch | frameError | none
deriving DecidableEq, Repr

/-- The engine phase PH (R51). -/
inductive Phase where
  | start | recvStart | wait | drain
deriving DecidableEq, Repr

/-- The STATUS register's fields (R27). -/
structure Status where
  busy : Bool
  done : Bool
  err : Bool
  busyErr : Bool
  werr : Bool
  state : LinkState
deriving DecidableEq, Repr

/-- The RESULT register's fields (R44). -/
structure Result where
  kind : Kind
  isLocal : Bool
  code : Byte
  detail : BitVec 4
deriving DecidableEq, Repr

/-- The bus's answer to one host access (R73, R74): a bus error or OK, and the data a read returns (0 for a write and
for a bus error), zero-extended. -/
structure BusResponse where
  busError : Bool
  data : Word
deriving DecidableEq, Repr

/-- A buffer: (index, byte) pairs in one canonical form, indices strictly rising, no byte equal to what an unlisted
index reads as (Memory.lean). -/
abbrev Memory := List Host.Cell

/-- What stands outside the FPE and is no FPE state (R6, R20): the model's own fields. `agenda` is the order of steps
the environment has chosen (R85); `answers` are poll answers chosen in advance, an input of the run (R176); `polls`
counts the polls made and indexes the free answers beyond that list; `sent` is the list of byte lists handed to
LinkSend (R263); `responses` are the bus's answers to the host, in order; `clock` counts the ticks of `clk` known to
have passed. -/
structure Environment where
  agenda : List Event
  answers : List (List Byte)
  polls : Nat
  sent : List (List Byte)
  responses : List BusResponse
  clock : Nat
deriving DecidableEq, Repr

/-- All of the FPE's state. A register is held as its implemented bits, or as its fields where they are flags and
named values; reserved bits are not stored, read 0 and ignore writes (R24). ID and the outputs `irq` and `baud_sel`
hold nothing of their own (R25, R56, R57) and are computed where they are read. -/
structure State where
  /-- `CTRL.IRQ_EN` (R26). -/
  irqEn : Bool
  /-- STATUS (R27). -/
  status : Status
  /-- CMD, the last accepted command word (R29). -/
  cmd : Word
  /-- `FAULT.CAUSE` (R30). -/
  cause : FaultCause
  /-- CODEC_CFG, bits 15:0 (R31). -/
  codecCfg : BitVec 16
  /-- SCALE (R32). -/
  scale : BitVec 32
  /-- VALUE, the pair VALUE_HI and VALUE_LO (R33). -/
  value : BitVec 64
  /-- RAW, the pair RAW_HI and RAW_LO (R34). -/
  raw : BitVec 64
  /-- DVAL, the pair DVAL_HI and DVAL_LO (R35). -/
  dval : BitVec 64
  /-- CKS_CFG, bits 18:0 (R36). -/
  cksCfg : BitVec 19
  /-- `CKS.SUM` (R37). -/
  cks : BitVec 8
  /-- `ADDR.ADDR` (R38). -/
  addr : BitVec 8
  /-- `OPLEN.LEN` (R39). -/
  oplen : BitVec 9
  /-- `TXLEN.LEN` (R40). -/
  txlen : BitVec 9
  /-- `RXLEN.LEN` (R41). -/
  rxlen : BitVec 9
  /-- LINK_CFG, bits 18:0 (R42). -/
  linkCfg : BitVec 19
  /-- `RETRY_CNT.COUNT` (R43). -/
  retryCnt : BitVec 16
  /-- PARSE_CFG, bits 15:0 (R47). -/
  parseCfg : BitVec 16
  /-- RESULT (R44). -/
  result : Result
  /-- STAGE (R48). -/
  stage : Memory
  /-- TXBUF (R49). -/
  txbuf : Memory
  /-- RXBUF (R50). -/
  rxbuf : Memory
  /-- OP, hidden: bits 7:0 of the last accepted command word (R51). -/
  op : BitVec 8
  /-- PH, hidden: the engine phase (R51). -/
  ph : Phase
  /-- The poll-delay timer, hidden: ticks still to pass before the next poll, 0 when idle (R52, R180). -/
  timer : Nat
  /-- The outside world; the model's own field. -/
  env : Environment
deriving DecidableEq, Repr

/-- STATUS after reset: BUSY, DONE, ERR, BUSY_ERR and WERR 0, STATE IDLE (R54). -/
def Status.reset : Status :=
  { busy := false, done := false, err := false, busyErr := false, werr := false, state := .idle }

/-- RESULT after reset, 0x0000_000F: KIND = NONE (R44, R54). -/
def Result.reset : Result := { kind := .none, isLocal := false, code := 0#8, detail := 0#4 }

/-- An outside world that has done nothing and has nothing planned. -/
def Environment.initial : Environment :=
  { agenda := [], answers := [], polls := 0, sent := [], responses := [], clock := 0 }

/-- The machine right after reset: the table of R54. No FPE state is unspecified after reset (R253). -/
def State.reset : State :=
  { irqEn := false
    status := Status.reset
    cmd := 0#32
    cause := .none
    codecCfg := 0x0001#16
    scale := 0x00000001#32
    value := 0#64
    raw := 0#64
    dval := 0#64
    cksCfg := 0#19
    cks := 0#8
    addr := 0#8
    oplen := 0#9
    txlen := 0#9
    rxlen := 0#9
    linkCfg := 0#19
    retryCnt := 0#16
    parseCfg := 0x0312#16
    result := Result.reset
    stage := []
    txbuf := []
    rxbuf := []
    op := 0#8
    ph := .start
    timer := 0
    env := Environment.initial }

end Sys2Proof.Machine
end

