-- ==== Sys2Proof/Machine/Flags.lean ====
section
/-! DEFINITION. The flags of STATUS, the codes of the named values, the register words made of them, and the two
outputs (spec/10_state.md rules R27, R28, R44 to R46, R55 to R57; spec/60_exceptions.md rule R225). -/

namespace Sys2Proof.Machine

open Sys2Proof

/-- The code of a fault cause (R225). -/
def FaultCause.toCode (c : FaultCause) : BitVec 8 :=
  match c with
  | .none => 0x00#8
  | .illegalCmd => 0x01#8
  | .cfgWidth => 0x02#8
  | .cfgScale => 0x03#8
  | .cfgOvf => 0x04#8
  | .cfgBuf => 0x05#8
  | .range => 0x06#8
  | .encNotFinite => 0x07#8
  | .encOverflow => 0x08#8
  | .buildOplen => 0x09#8
  | .buildCapacity => 0x0A#8
  | .buildAddr => 0x0B#8
  | .timeout => 0x0C#8
  | .rxOverrun => 0x0D#8
  | .response => 0x10#8

/-- The value of STATUS.STATE (R28). -/
def LinkState.toCode (st : LinkState) : BitVec 3 :=
  match st with
  | .idle => 0#3
  | .sent => 1#3
  | .waiting => 2#3
  | .draining => 3#3
  | .received => 4#3
  | .timeout => 5#3
  | .overrun => 6#3

/-- The value of RESULT.KIND (R45). -/
def Kind.toCode (k : Kind) : BitVec 4 :=
  match k with
  | .success => 0#4
  | .checksumError => 1#4
  | .parameterError => 2#4
  | .notExecutable => 3#4
  | .invalidCommand => 4#4
  | .unknownCommand => 5#4
  | .unknownError => 6#4
  | .fail => 7#4
  | .ioError => 8#4
  | .echoMismatch => 9#4
  | .frameError => 10#4
  | .none => 15#4

/-- STATUS as the host reads it (R27): reserved bits 7:5 and 31:11 are 0. -/
def statusWord (t : Status) : Word :=
  0#21 ++ t.state.toCode ++ 0#3 ++ BitVec.ofBool t.werr ++ BitVec.ofBool t.busyErr ++ BitVec.ofBool t.err
    ++ BitVec.ofBool t.done ++ BitVec.ofBool t.busy

/-- RESULT as the host reads it (R44): reserved bits 7:5 and 31:20 are 0. -/
def resultWord (r : Result) : Word :=
  0#12 ++ r.detail ++ r.code ++ 0#3 ++ BitVec.ofBool r.isLocal ++ r.kind.toCode

/-- A host write to STATUS (R23, R27): a 1 in bit 1, 2, 3 or 4 clears DONE, ERR, BUSY_ERR or WERR, a 0 leaves it, and
BUSY and STATE are read-only. -/
def writeOneToClear (v : Word) (t : Status) : Status :=
  { t with
    done := t.done && !v.getLsbD 1
    err := t.err && !v.getLsbD 2
    busyErr := t.busyErr && !v.getLsbD 3
    werr := t.werr && !v.getLsbD 4 }

/-- The STATUS bits after `complete()` (R223). -/
def Status.completed (t : Status) : Status := { t with busy := false, done := true, err := false }

/-- The STATUS bits after `raise Fault(c)` (R224). -/
def Status.faulted (t : Status) : Status := { t with busy := false, done := true, err := true }

/-- The STATUS bits after acceptance (R221). -/
def Status.accepted (t : Status) : Status := { t with busy := true, done := false, err := false }

/-- The output `irq`: `CTRL.IRQ_EN AND STATUS.DONE`, a level (R56, R230). -/
def State.irq (s : State) : Bool := s.irqEn && s.status.done

/-- The output `baud_sel`: `LINK_CFG.BAUD_SEL` (R57). -/
def State.baudSel (s : State) : BitVec 3 := s.linkCfg.extractLsb' 16 3

end Sys2Proof.Machine
end

