-- ==== Sys2Proof/Machine/Memory.lean ====
section
/-! DEFINITION. The buffers as canonical lists of cells, their one read and one write, byte order, and the checksum
function (spec/20_memory.md, spec/41_checksum.md rule R140). -/

namespace Sys2Proof.Machine

open Sys2Proof

/-- What a buffer index that is not listed reads as: every byte of STAGE, TXBUF and RXBUF is 0x00 at reset
(R48 to R50). -/
def Memory.unlisted : Byte := 0x00#8

/-- `X[i]` (R10). -/
def Memory.read : Memory → Nat → Byte
  | [], _ => Memory.unlisted
  | (k, v) :: m, i => if k = i then v else Memory.read m i

/-- Store `b` at index `i` of a canonical list: the entry is replaced, put in its place, or removed when `b` is what an
unlisted index reads as. -/
def Memory.put : Memory → Nat → Byte → Memory
  | [], i, b => if b = Memory.unlisted then [] else [(i, b)]
  | (k, v) :: m, i, b =>
    if i < k then (if b = Memory.unlisted then (k, v) :: m else (i, b) :: (k, v) :: m)
    else if i = k then (if b = Memory.unlisted then m else (i, b) :: m)
    else (k, v) :: Memory.put m i b

/-- `X[i] <- b` (R10). A buffer has the indices 0..255 only (R48 to R50), and no rule writes another one. -/
def Memory.write (m : Memory) (i : Nat) (b : Byte) : Memory :=
  if i < Config.bufSize then Memory.put m i b else m

/-- `X[a], X[a+1], …`: `n` bytes read in index order. -/
def Memory.readBytes (m : Memory) (a : Nat) : Nat → List Byte
  | 0 => []
  | n + 1 => Memory.read m a :: Memory.readBytes m (a + 1) n

/-- Store the bytes of a list at `a`, `a + 1`, … in order. -/
def Memory.writeBytes (m : Memory) (a : Nat) : List Byte → Memory
  | [] => m
  | b :: bs => Memory.writeBytes (Memory.write m a b) (a + 1) bs

/-- Canonical from index `lo` up: indices strictly rising and below 256, no entry equal to what an unlisted index
reads as. -/
def Memory.wfFrom (lo : Nat) : Memory → Bool
  | [] => true
  | (k, v) :: m => decide (lo ≤ k) && decide (k < Config.bufSize) && (v != Memory.unlisted) && Memory.wfFrom (k + 1) m

/-- The canonical form of a buffer. -/
def Memory.wf (m : Memory) : Bool := Memory.wfFrom 0 m

/-- `Σ X[i]` for `i` in `a .. a+n−1`, as an unbounded number (R128, R140). -/
def Memory.byteSum (m : Memory) (a : Nat) : Nat → Nat
  | 0 => 0
  | n + 1 => (Memory.read m a).toNat + Memory.byteSum m (a + 1) n

/-- `sum8(X, a, n)`, the modulo-256 byte sum of R140. -/
def Memory.sum8 (m : Memory) (a n : Nat) : Byte := BitVec.ofNat 8 (Memory.byteSum m a n)

/-- The `n` low bytes of a number, least significant first (R124). -/
def leBytes (v : Nat) : Nat → List Byte
  | 0 => []
  | n + 1 => BitVec.ofNat 8 v :: leBytes (v / 256) n

/-- The number whose bytes these are, least significant first (R74, R125). -/
def leValue : List Byte → Nat
  | [] => 0
  | b :: bs => b.toNat + 256 * leValue bs

end Sys2Proof.Machine
end

