-- ==== Sys2Proof/Machine/Operands.lean ====
section
/-! DEFINITION. The operands of the commands: fields of the control registers (spec/30_encoding.md rule R105, with the
bit places of spec/10_state.md) and the buffers they select. Every field is unsigned. -/

namespace Sys2Proof.Machine

open Sys2Proof

/-- `CODEC_CFG.WIDTH`, bits 3:0 (R31). -/
def State.width (s : State) : Nat := (s.codecCfg.extractLsb' 0 4).toNat

/-- `CODEC_CFG.ORDER`, bit 4 (R31): true is BIG. -/
def State.orderBig (s : State) : Bool := s.codecCfg.getLsbD 4

/-- `CODEC_CFG.OVF`, bits 6:5 (R31): 0 FAULT, 1 WRAP, 2 SAT, 3 reserved. -/
def State.ovf (s : State) : BitVec 2 := s.codecCfg.extractLsb' 5 2

/-- `CODEC_CFG.SRC`, bit 7 (R31): true is STAGE, false RXBUF. -/
def State.srcStage (s : State) : Bool := s.codecCfg.getLsbD 7

/-- `CODEC_CFG.OFFSET`, bits 15:8 (R31). -/
def State.offset (s : State) : Nat := (s.codecCfg.extractLsb' 8 8).toNat

/-- `CKS_CFG.START`, bits 7:0 (R36). -/
def State.cksStart (s : State) : Nat := (s.cksCfg.extractLsb' 0 8).toNat

/-- `CKS_CFG.LEN`, bits 16:8 (R36). -/
def State.cksLen (s : State) : Nat := (s.cksCfg.extractLsb' 8 9).toNat

/-- `CKS_CFG.BUF`, bits 18:17 (R36): 0 STAGE, 1 TXBUF, 2 RXBUF, 3 reserved. -/
def State.cksBuf (s : State) : BitVec 2 := s.cksCfg.extractLsb' 17 2

/-- `LINK_CFG.MAX_RETRIES`, bits 15:0 (R42). -/
def State.maxRetries (s : State) : Nat := (s.linkCfg.extractLsb' 0 16).toNat

/-- `PARSE_CFG.VALOPC`, bits 7:0 (R47). -/
def State.valopc (s : State) : Byte := s.parseCfg.extractLsb' 0 8

/-- `PARSE_CFG.RES_OFS`, bits 15:8 (R47). -/
def State.resOfs (s : State) : Nat := (s.parseCfg.extractLsb' 8 8).toNat

/-- A buffer by name. -/
def State.buffer (s : State) (b : BufId) : Memory :=
  match b with
  | .stage => s.stage
  | .txbuf => s.txbuf
  | .rxbuf => s.rxbuf

/-- The state with one buffer replaced. -/
def State.setBuffer (s : State) (b : BufId) (m : Memory) : State :=
  match b with
  | .stage => { s with stage := m }
  | .txbuf => { s with txbuf := m }
  | .rxbuf => { s with rxbuf := m }

/-- The source buffer of DECODE (R125): RXBUF if SRC = 0, STAGE if SRC = 1. -/
def State.decodeSource (s : State) : BufId := if s.srcStage then .stage else .rxbuf

/-- The buffer CKSUM reads (R141): STAGE if BUF = 0, TXBUF if BUF = 1, and RXBUF otherwise. -/
def State.cksSource (s : State) : BufId :=
  if s.cksBuf = 0#2 then .stage else if s.cksBuf = 1#2 then .txbuf else .rxbuf

end Sys2Proof.Machine
end

