-- ==== Sys2Proof/Machine/Ops.lean ====
section
/-! DEFINITION. The operations the commands share: acceptance, normal end, raising an FPE fault, the RESULT primitive,
and the link's two primitives with the poll-delay timer (spec/60_exceptions.md, spec/43_link.md). -/

namespace Sys2Proof.Machine

open Sys2Proof

/-- The three outcomes of a step of this machine. -/
abbrev StepOutcome := Host.Outcome State Fault Refusal

/-- TAKING AN FPE FAULT, the one shared operation: `raise Fault(c)` ends the running command (R224). There is no saved
pc and no handler address: the FPE has no program counter, no mode and no vector, and the host is the handler
(R22, R228, R232). -/
def raiseFault (c : FaultCause) (s : State) : State :=
  { s with cause := c, status := s.status.faulted }

/-- `complete()`: the running command ends normally (R223). -/
def complete (s : State) : State :=
  { s with cause := .none, status := s.status.completed }

/-- Acceptance of command word `w` (R221). It is also what returns the FPE from a fault: no return-from-trap operation
exists, and the next acceptance clears DONE, ERR and FAULT.CAUSE (R228). -/
def accept (w : Word) (s : State) : State :=
  { s with cmd := w, op := w.extractLsb' 0 8, ph := .start, status := s.status.accepted, cause := .none }

/-- A CMD write while BUSY = 1 is refused: BUSY_ERR is set and nothing else changes (R222). -/
def refuseCmd (s : State) : State :=
  { s with status := { s.status with busyErr := true } }

/-- A dropped write: the target keeps its value and WERR is set (R53). -/
def dropWrite (s : State) : State :=
  { s with status := { s.status with werr := true } }

/-- `STATUS.STATE <- st` (R171). -/
def setLink (st : LinkState) (s : State) : State :=
  { s with status := { s.status with state := st } }

/-- `result(KIND, LOCAL, CODE, DETAIL)`: all four fields at once (R44). -/
def setResult (k : Kind) (isLocal : Bool) (code : Byte) (detail : BitVec 4) (s : State) : State :=
  { s with result := { kind := k, isLocal := isLocal, code := code, detail := detail } }

/-- `LinkSend(bs)`: hand the ordered bytes to the link. It never fails (R170). -/
def linkSend (bs : List Byte) (s : State) : State :=
  { s with env := { s.env with sent := s.env.sent ++ [bs] } }

/-- `BAUD_TABLE[LINK_CFG.BAUD_SEL].poll_delay`, at least 1 (R8, R180). -/
def pollDelay (s : State) : Nat := (Config.baudTable s.baudSel).pollDelay

/-- Wait out what is left of the poll delay: a poll, or the TIMEOUT check, comes at least that many ticks after the
previous poll (R180). -/
def awaitPoll (s : State) : State :=
  { s with timer := 0, env := { s.env with clock := s.env.clock + s.timer } }

/-- The bytes the link answers the next poll with: the environment's next listed answer, else a free one (R176). -/
def pollAnswer (e : Environment) : List Byte :=
  match e.answers with
  | bs :: _ => bs
  | [] => Config.linkAnswer e.polls

/-- The state after one `LinkPoll()`: the answer is consumed, the poll counted, and the poll-delay timer restarted
(R176, R180, R234). -/
def afterPoll (s : State) : State :=
  { s with timer := pollDelay s, env := { s.env with answers := s.env.answers.tail, polls := s.env.polls + 1 } }

/-- One tick of `clk`: it measures only the poll delay (R90, R180). -/
def clockTick (s : State) : State :=
  { s with timer := s.timer - 1, env := { s.env with clock := s.env.clock + 1 } }

/-- Asserting `rst`: one atomic step sets every piece of FPE state to its reset value, whatever it was. Bytes handed to
the link stay transmitted, and the link keeps what it holds (R250, R251). -/
def resetInput (s : State) : State := { State.reset with env := s.env }

end Sys2Proof.Machine
end

