-- ==== Sys2Proof/Machine/Build.lean ====
section
/-! DEFINITION. The frame builder: BUILD_LOAD and BUILD_METER (spec/42_frame_build.md rules R150 to R153). -/

namespace Sys2Proof.Machine

open Sys2Proof

/-- An address of the load dialect: 0..31 unicast or 0xFF broadcast (R106, R151). -/
def loadAddrOk (a : Byte) : Bool := decide (a.toNat ≤ 31) || a == 0xFF#8

/-- An address of the meter dialect: 1..254 (R108, R152). -/
def meterAddrOk (a : Byte) : Bool := a != 0x00#8 && a != 0xFF#8

/-- Bytes 0..24 of a load frame: sync, address, the opcode-and-payload bytes, zero fill (R106, R151). -/
def loadBody (addr : Byte) (opBytes : List Byte) : List Byte :=
  [Config.loadSync, addr] ++ opBytes ++ List.replicate (23 - opBytes.length) 0x00#8

/-- TXBUF after BUILD_LOAD: the body, then at index 25 the checksum of the 25 bytes just written (R151). -/
def loadFrame (addr : Byte) (opBytes : List Byte) (tx : Memory) : Memory :=
  let body := tx.writeBytes 0 (loadBody addr opBytes)
  body.write 25 (body.sum8 0 25)

/-- BUILD_LOAD (R151). -/
def execBuildLoad (s : State) : StepOutcome :=
  if s.oplen.toNat = 0 then .next (raiseFault .buildOplen s)
  else if 23 < s.oplen.toNat then .next (raiseFault .buildCapacity s)
  else if loadAddrOk s.addr then
    .next (complete { s with
      txbuf := loadFrame s.addr (s.stage.readBytes 0 s.oplen.toNat) s.txbuf
      txlen := BitVec.ofNat 9 Config.loadFrameLen })
  else .next (raiseFault .buildAddr s)

/-- Bytes 0..L−3 of a meter frame of length `len`: delimiter, length big-endian, address, opcode and payload
(R108, R152). -/
def meterBody (len : Nat) (addr : Byte) (opBytes : List Byte) : List Byte :=
  [Config.meterSof, BitVec.ofNat 8 (len / 256), BitVec.ofNat 8 len, addr] ++ opBytes

/-- TXBUF after BUILD_METER: the body, then the checksum of bytes 1..L−3 just written and the end delimiter (R152). -/
def meterFrame (len : Nat) (addr : Byte) (opBytes : List Byte) (tx : Memory) : Memory :=
  let body := tx.writeBytes 0 (meterBody len addr opBytes)
  (body.write (len - 2) (body.sum8 1 (len - 3))).write (len - 1) Config.meterEof

/-- BUILD_METER (R152). -/
def execBuildMeter (s : State) : StepOutcome :=
  if s.oplen.toNat < 2 then .next (raiseFault .buildOplen s)
  else if 250 < s.oplen.toNat then .next (raiseFault .buildCapacity s)
  else if meterAddrOk s.addr then
    .next (complete { s with
      txbuf := meterFrame (s.oplen.toNat + 6) s.addr (s.stage.readBytes 0 s.oplen.toNat) s.txbuf
      txlen := BitVec.ofNat 9 (s.oplen.toNat + 6) })
  else .next (raiseFault .buildAddr s)

end Sys2Proof.Machine
end

