-- ==== Sys2Proof/Machine/Checksum.lean ====
section
/-! DEFINITION. The checksum unit: CKSUM (spec/41_checksum.md rule R141). -/

namespace Sys2Proof.Machine

open Sys2Proof

/-- CKSUM (R141). -/
def execCksum (s : State) : StepOutcome :=
  if s.cksBuf = 3#2 then .next (raiseFault .cfgBuf s)
  else if Config.bufSize < s.cksStart + s.cksLen then .next (raiseFault .range s)
  else .next (complete { s with cks := (s.buffer s.cksSource).sum8 s.cksStart s.cksLen })

end Sys2Proof.Machine
end

