-- ==== Sys2Proof/Machine/Binary64.lean ====
section
/-! DEFINITION. IEEE 754 binary64 as spec/00_scope.md rule R11 describes it: the fields of a 64-bit pattern, the real
number a finite one denotes, and rounding a rational to nearest, ties to even. Everything is on unbounded numbers. -/

namespace Sys2Proof.Machine

open Sys2Proof

/-- The sign, bit 63 (R11). -/
def f64Neg (f : BitVec 64) : Bool := f.getLsbD 63

/-- The biased exponent, bits 62:52 (R11). -/
def f64Exp (f : BitVec 64) : Nat := (f.extractLsb' 52 11).toNat

/-- The fraction, bits 51:0 (R11). -/
def f64Frac (f : BitVec 64) : Nat := (f.extractLsb' 0 52).toNat

/-- Neither infinite nor NaN: the exponent field is not 0x7FF (R11). -/
def f64IsFinite (f : BitVec 64) : Bool := decide (f64Exp f ≠ 0x7FF)

/-- Infinity: exponent field 0x7FF and fraction 0 (R11). -/
def f64IsInf (f : BitVec 64) : Bool := decide (f64Exp f = 0x7FF) && decide (f64Frac f = 0)

/-- NaN: exponent field 0x7FF and fraction not 0 (R11). -/
def f64IsNaN (f : BitVec 64) : Bool := decide (f64Exp f = 0x7FF) && decide (f64Frac f ≠ 0)

/-- `2^1074`: the smallest positive binary64 is one part in this many. Written in small powers so that every evaluator
computes it. -/
def f64One : Nat := 2 ^ 256 * 2 ^ 256 * 2 ^ 256 * 2 ^ 256 * 2 ^ 50

/-- The magnitude of a finite binary64 as a multiple of `2^(−1074)`: `m · 2^e` of R11 with `e ≥ −1074`. -/
def f64Units (f : BitVec 64) : Nat :=
  if f64Exp f = 0 then f64Frac f else (2 ^ 52 + f64Frac f) * 2 ^ (f64Exp f - 1)

/-- The integer nearest to `n / d`, ties to even. -/
def roundHalfEven (n d : Nat) : Nat :=
  if 2 * (n % d) < d then n / d
  else if d < 2 * (n % d) then n / d + 1
  else n / d + n / d % 2

/-- How many bits of `q` lie below its 53 leading ones: 0 when `q < 2^53`. -/
def excessBits (q : Nat) : Nat := Nat.log2 q - 52

/-- The magnitude bits 62:0 of `rne64` for `num / den ≥ 0`. In units of `2^(−1074)` the real is
`num · 2^1074 / den`; with `e = excess − 1074` the nearest `m · 2^e` has `m = roundHalfEven`, and exponent and fraction
fields together are `excess · 2^52 + m`, a carry of `m` to `2^53` included. From `2^1024 − 2^970` up the answer is the
infinity (R11). -/
def rneMagnitude (num den : Nat) : Nat :=
  let excess := excessBits (num * f64One / den)
  let bits := excess * 2 ^ 52 + roundHalfEven (num * f64One) (den * 2 ^ excess)
  min bits (0x7FF * 2 ^ 52)

/-- `rne64(x)` for `x = num / den`, negated when `neg` (R11). `rne64(0)` is +0. -/
def rne64 (neg : Bool) (num den : Nat) : BitVec 64 :=
  BitVec.ofBool (neg && decide (num ≠ 0)) ++ BitVec.ofNat 63 (rneMagnitude num den)

/-- `trunc(val(p))` for a finite `p`: the integer part, rounded toward zero (R10, R122). -/
def f64Trunc (p : BitVec 64) : Int :=
  if f64Neg p then -((f64Units p / f64One : Nat) : Int) else ((f64Units p / f64One : Nat) : Int)

end Sys2Proof.Machine
end

