-- ==== Sys2Proof/Machine/Codec.lean ====
section
/-! DEFINITION. The scaled-value codec: ENCODE and DECODE (spec/40_codec.md rules R120 to R126). -/

namespace Sys2Proof.Machine

open Sys2Proof

/-- The configuration checks of R120 in their order: WIDTH, SCALE, OVF (for ENCODE only), RANGE. The first that fails
names the fault. -/
def codecCheck (isEncode : Bool) (s : State) : Option FaultCause :=
  if s.width = 0 ∨ Config.maxWidth < s.width then some .cfgWidth
  else if s.scale = 0#32 then some .cfgScale
  else if isEncode = true ∧ s.ovf = 3#2 then some .cfgOvf
  else if Config.bufSize < s.offset + s.width then some .range
  else none

/-- The scaled product `p = rne64(val(f) × S)` of R122, one binary64 multiplication. -/
def scaledProduct (f : BitVec 64) (scale : Nat) : BitVec 64 :=
  rne64 (f64Neg f) (f64Units f * scale) f64One

/-- `limit(p, W, M)` of R123; `none` is its `raise Fault(ENC_OVERFLOW)`. -/
def limitField (p : BitVec 64) (width : Nat) (ovf : BitVec 2) : Option Nat :=
  if f64IsInf p then
    (if ovf = 2#2 then some (if f64Neg p then 0 else 2 ^ (8 * width) - 1) else none)
  else if 0 ≤ f64Trunc p ∧ f64Trunc p < 2 ^ (8 * width) then some (f64Trunc p).toNat
  else if ovf = 1#2 then some (f64Trunc p % 2 ^ (8 * width)).toNat
  else if ovf = 2#2 then some (if f64Trunc p < 0 then 0 else 2 ^ (8 * width) - 1)
  else none

/-- The bytes of a field in index order: least significant first, reversed for BIG (R124). -/
def fieldBytes (n width : Nat) (big : Bool) : List Byte :=
  if big then (leBytes n width).reverse else leBytes n width

/-- The field value of bytes in index order (R125). -/
def fieldValue (bs : List Byte) (big : Bool) : Nat :=
  leValue (if big then bs.reverse else bs)

/-- `place(n, W, ORDER, STAGE, O)` (R124). -/
def placeField (n : Nat) (s : State) : State :=
  { s with stage := s.stage.writeBytes s.offset (fieldBytes n s.width s.orderBig) }

/-- ENCODE (R121). -/
def execEncode (s : State) : StepOutcome :=
  match codecCheck true s with
  | some c => .next (raiseFault c s)
  | none =>
    if f64IsFinite s.value then
      match limitField (scaledProduct s.value s.scale.toNat) s.width s.ovf with
      | some n => .next (complete { placeField n s with raw := BitVec.ofNat 64 n })
      | none => .next (raiseFault .encOverflow s)
    else .next (raiseFault .encNotFinite s)

/-- The field value DECODE reads from its source buffer (R125). -/
def decodedField (s : State) : Nat :=
  fieldValue ((s.buffer s.decodeSource).readBytes s.offset s.width) s.orderBig

/-- DECODE (R125, R126). -/
def execDecode (s : State) : StepOutcome :=
  match codecCheck false s with
  | some c => .next (raiseFault c s)
  | none =>
    .next (complete { s with
      raw := BitVec.ofNat 64 (decodedField s)
      dval := rne64 false (decodedField s) s.scale.toNat })

end Sys2Proof.Machine
end

