-- ==== Sys2Proof/Machine/Link.lean ====
section
/-! DEFINITION. The link engine: SEND, RECV and QUERY and the steps of the polling state machine
(spec/43_link.md rules R171 to R180). -/

namespace Sys2Proof.Machine

open Sys2Proof

/-- TXLEN is legal at SEND and QUERY: 1..256 (R40, R173). -/
def txlenOk (s : State) : Bool := decide (1 ≤ s.txlen.toNat) && decide (s.txlen.toNat ≤ Config.bufSize)

/-- Hand `TXBUF[0..TXLEN−1]` to the link, `TXBUF[0]` first, and show SENT (R173, R175). -/
def transmit (s : State) : State :=
  setLink .sent (linkSend (s.txbuf.readBytes 0 s.txlen.toNat) s)

/-- `recv_start()` (R174): no poll is made, and the first poll has no minimum delay, so the timer is idle (R180). -/
def recvStart (s : State) : State :=
  { setLink .waiting s with rxlen := 0#9, retryCnt := 0#16, ph := .wait, timer := 0 }

/-- How many bytes of an answer still fit: `min(len(bs), 256 − RXLEN)` (R179). -/
def fitCount (bs : List Byte) (s : State) : Nat := min bs.length (Config.bufSize - s.rxlen.toNat)

/-- The storing part of `append(bs)`: the bytes that fit go to RXBUF in arrival order and are counted (R179). -/
def storeReceived (bs : List Byte) (s : State) : State :=
  { s with
    rxbuf := s.rxbuf.writeBytes s.rxlen.toNat (bs.take (fitCount bs s))
    rxlen := BitVec.ofNat 9 (s.rxlen.toNat + fitCount bs s) }

/-- `append(bs)` (R179). The error side is the state after `raise Fault(RX_OVERRUN)`: the bytes that do not fit are
consumed and discarded. -/
def appendBytes (bs : List Byte) (s : State) : Except State State :=
  if fitCount bs s < bs.length then .error (raiseFault .rxOverrun (setLink .overrun (storeReceived bs s)))
  else .ok (storeReceived bs s)

/-- `wait_step()` (R177). -/
def waitStep (s : State) : StepOutcome :=
  let s1 := awaitPoll s
  if s1.maxRetries ≤ s1.retryCnt.toNat then .next (raiseFault .timeout (setLink .timeout s1))
  else
    let s2 := afterPoll s1
    match pollAnswer s1.env with
    | [] => .next { s2 with retryCnt := s2.retryCnt + 1#16 }
    | b :: bs =>
      match appendBytes (b :: bs) s2 with
      | .error t => .next t
      | .ok t => .next { setLink .draining t with ph := .drain }

/-- `drain_step()` (R178). The first empty poll after data is the idle gap, which ends the reply. -/
def drainStep (s : State) : StepOutcome :=
  let s1 := awaitPoll s
  let s2 := afterPoll s1
  match pollAnswer s1.env with
  | [] => .next (complete (setLink .received s2))
  | b :: bs =>
    match appendBytes (b :: bs) s2 with
    | .error t => .next t
    | .ok t => .next t

/-- SEND (R173), one step. -/
def execSend (s : State) : StepOutcome :=
  if txlenOk s then .next (complete (transmit s)) else .next (raiseFault .range s)

/-- RECV (R174): the step its phase selects (R172). -/
def execRecv (s : State) : StepOutcome :=
  match s.ph with
  | .start => .next (recvStart s)
  | .recvStart => .next (recvStart s)
  | .wait => waitStep s
  | .drain => drainStep s

/-- QUERY (R175): the transmit step, then the steps of a receive phase, as its phase selects (R172). -/
def execQuery (s : State) : StepOutcome :=
  match s.ph with
  | .start => if txlenOk s then .next { transmit s with ph := .recvStart } else .next (raiseFault .range s)
  | .recvStart => .next (recvStart s)
  | .wait => waitStep s
  | .drain => drainStep s

end Sys2Proof.Machine
end

