-- ==== Sys2Proof/Machine/Parse.lean ====
section
/-! DEFINITION. The response parsers: PARSE_LOAD and PARSE_METER (spec/44_parse.md rules R200 to R208). -/

namespace Sys2Proof.Machine

open Sys2Proof

/-- `result(…)` and then `raise Fault(RESPONSE)` (R202, R207). -/
def rejectResponse (k : Kind) (isLocal : Bool) (code : Byte) (detail : BitVec 4) (s : State) : StepOutcome :=
  .next (raiseFault .response (setResult k isLocal code detail s))

/-- `result(…)` and then `complete()` (R202, R207). -/
def acceptResponse (k : Kind) (code : Byte) (s : State) : StepOutcome :=
  .next (complete (setResult k false code 0#4 s))

/-- `classify_load` (R204, the table of R110). -/
def classifyLoad (b : Byte) : Kind :=
  if b = 0x80#8 then .success
  else if b = 0x90#8 then .checksumError
  else if b = 0xA0#8 then .parameterError
  else if b = 0xB0#8 then .notExecutable
  else if b = 0xC0#8 then .invalidCommand
  else if b = 0xD0#8 then .unknownCommand
  else .unknownError

/-- PARSE_LOAD (R202): length, sync, checksum, echo, status, in this order; the address byte is not checked (R211). -/
def execParseLoad (s : State) : StepOutcome :=
  let rx := s.rxbuf
  if Config.bufSize < s.rxlen.toNat then .next (raiseFault .range s)
  else if s.rxlen.toNat ≠ Config.loadFrameLen then rejectResponse .frameError true 0x00#8 1#4 s
  else if rx.read 0 ≠ Config.loadSync then rejectResponse .frameError true 0x00#8 2#4 s
  else if rx.sum8 0 25 ≠ rx.read 25 then rejectResponse .checksumError true (rx.read 3) 3#4 s
  else if rx.read 2 ≠ s.valopc then rejectResponse .echoMismatch true (rx.read 3) 4#4 s
  else if classifyLoad (rx.read 3) = .success then acceptResponse .success (rx.read 3) s
  else rejectResponse (classifyLoad (rx.read 3)) false (rx.read 3) 0#4 s

/-- The kind of a meter result byte (R111, R207). -/
def classifyMeter (b : Byte) : Kind :=
  if b = 0x00#8 then .success else if b = 0x01#8 then .fail else .unknownError

/-- PARSE_METER (R207): length, delimiters, length field, checksum, result offset, result byte, in this order; the
address byte is not checked (R211). -/
def execParseMeter (s : State) : StepOutcome :=
  let rx := s.rxbuf
  let len := s.rxlen.toNat
  if Config.bufSize < len then .next (raiseFault .range s)
  else if len < 8 then rejectResponse .ioError true 0x00#8 1#4 s
  else if rx.read 0 ≠ Config.meterSof then rejectResponse .ioError true 0x00#8 2#4 s
  else if rx.read (len - 1) ≠ Config.meterEof then rejectResponse .ioError true 0x00#8 3#4 s
  else if (rx.read 1).toNat * 256 + (rx.read 2).toNat ≠ len then rejectResponse .ioError true 0x00#8 4#4 s
  else if rx.sum8 1 (len - 3) ≠ rx.read (len - 2) then rejectResponse .ioError true 0x00#8 5#4 s
  else if s.resOfs < 3 ∨ len - 4 < s.resOfs then rejectResponse .ioError true 0x00#8 6#4 s
  else if classifyMeter (rx.read (len - s.resOfs)) = .unknownError then
    rejectResponse .unknownError false (rx.read (len - s.resOfs)) 0#4 s
  else acceptResponse (classifyMeter (rx.read (len - s.resOfs))) (rx.read (len - s.resOfs)) s

end Sys2Proof.Machine
end

