-- ==== Sys2Proof/Machine/Dispatch.lean ====
section
/-! DEFINITION. One arm per command: the engine step of a command in the phase the engine is in (R172). -/

namespace Sys2Proof.Machine

open Sys2Proof

def exec (i : Instr) (s : State) : Host.Outcome State Fault Refusal :=
  match i with
  | .encode => Sys2Proof.Machine.execEncode s
  | .decode => Sys2Proof.Machine.execDecode s
  | .cksum => Sys2Proof.Machine.execCksum s
  | .buildLoad => Sys2Proof.Machine.execBuildLoad s
  | .buildMeter => Sys2Proof.Machine.execBuildMeter s
  | .send => Sys2Proof.Machine.execSend s
  | .recv => Sys2Proof.Machine.execRecv s
  | .query => Sys2Proof.Machine.execQuery s
  | .parseLoad => Sys2Proof.Machine.execParseLoad s
  | .parseMeter => Sys2Proof.Machine.execParseMeter s

end Sys2Proof.Machine
end

