-- ==== Sys2Proof/Machine/HostBus.lean ====
section
/-! DEFINITION. The host bus: the address map, legality, MemRead and MemWrite (spec/20_memory.md rules R71 to R78) and
the access types of the registers (spec/10_state.md rules R23 to R47, R53). -/

namespace Sys2Proof.Machine

open Sys2Proof

/-- The bytes of an access: 1, 2 or 4 (R72). -/
def busBytes (n : BusSize) : Nat :=
  match n with
  | .byte => 1
  | .half => 2
  | .word => 4

/-- The host offset of a register (R25 to R47). -/
def regOffset (r : Reg) : HostAddr :=
  match r with
  | .id => 0x000#12
  | .ctrl => 0x004#12
  | .status => 0x008#12
  | .cmd => 0x00C#12
  | .fault => 0x010#12
  | .codecCfg => 0x014#12
  | .scale => 0x018#12
  | .valueLo => 0x01C#12
  | .valueHi => 0x020#12
  | .rawLo => 0x024#12
  | .rawHi => 0x028#12
  | .dvalLo => 0x02C#12
  | .dvalHi => 0x030#12
  | .cksCfg => 0x034#12
  | .cks => 0x038#12
  | .addr => 0x03C#12
  | .oplen => 0x040#12
  | .txlen => 0x044#12
  | .rxlen => 0x048#12
  | .linkCfg => 0x04C#12
  | .retryCnt => 0x050#12
  | .parseCfg => 0x054#12
  | .result => 0x058#12

/-- The 23 registers in the order of their offsets. -/
def allRegs : List Reg :=
  [.id, .ctrl, .status, .cmd, .fault, .codecCfg, .scale, .valueLo, .valueHi, .rawLo, .rawHi, .dvalLo, .dvalHi,
   .cksCfg, .cks, .addr, .oplen, .txlen, .rxlen, .linkCfg, .retryCnt, .parseCfg, .result]

/-- The register at a host offset; `none` for a reserved offset (R24). -/
def regAt (a : HostAddr) : Option Reg := allRegs.find? (fun r => regOffset r == a)

/-- A place of the address map of R71. -/
inductive Target where
  /-- A CSR of 0x000..0x058. -/
  | csr (r : Reg)
  /-- A reserved CSR offset: reads 0, writes ignored (R24). -/
  | reserved
  /-- A buffer window and the index in the buffer. -/
  | window (b : BufId) (i : Nat)
deriving DecidableEq, Repr

/-- What a legal access of size `n` at `a` reaches; `none` is an illegal access, a bus error: misaligned, a size the
range does not allow, or unmapped (R71 to R73). -/
def busTarget (a : HostAddr) (n : BusSize) : Option Target :=
  if a.toNat % busBytes n ≠ 0 then none
  else if a.toNat < 0x100 then
    (if n = .word then some (match regAt a with | some r => .csr r | none => .reserved) else none)
  else if a.toNat < 0x200 then some (.window .stage (a.toNat - 0x100))
  else if a.toNat < 0x300 then some (.window .txbuf (a.toNat - 0x200))
  else if a.toNat < 0x400 then some (.window .rxbuf (a.toNat - 0x300))
  else none

/-- A register as the host reads it: 32 bits, reserved bits 0 (R24 to R47, R74). A read changes nothing (R80). -/
def readReg (r : Reg) (s : State) : Word :=
  match r with
  | .id => Config.idValue
  | .ctrl => (BitVec.ofBool s.irqEn).setWidth 32
  | .status => statusWord s.status
  | .cmd => s.cmd
  | .fault => s.cause.toCode.setWidth 32
  | .codecCfg => s.codecCfg.setWidth 32
  | .scale => s.scale
  | .valueLo => s.value.extractLsb' 0 32
  | .valueHi => s.value.extractLsb' 32 32
  | .rawLo => s.raw.extractLsb' 0 32
  | .rawHi => s.raw.extractLsb' 32 32
  | .dvalLo => s.dval.extractLsb' 0 32
  | .dvalHi => s.dval.extractLsb' 32 32
  | .cksCfg => s.cksCfg.setWidth 32
  | .cks => s.cks.setWidth 32
  | .addr => s.addr.setWidth 32
  | .oplen => s.oplen.setWidth 32
  | .txlen => s.txlen.setWidth 32
  | .rxlen => s.rxlen.setWidth 32
  | .linkCfg => s.linkCfg.setWidth 32
  | .retryCnt => s.retryCnt.setWidth 32
  | .parseCfg => s.parseCfg.setWidth 32
  | .result => resultWord s.result

/-- A write to an operand register or a buffer: dropped, with WERR set, while BUSY = 1 (R53). `t` is the state after
the write. -/
def guardBusy (s t : State) : State := if s.status.busy then dropWrite s else t

/-- A host write of a 32-bit value to a register, by its access type (R23, R53, R75): bits outside the implemented
fields are ignored, and a write to a read-only register has no effect (R24). -/
def writeReg (r : Reg) (v : Word) (s : State) : State :=
  match r with
  | .id => s
  | .ctrl => { s with irqEn := v.getLsbD 0 }
  | .status => { s with status := writeOneToClear v s.status }
  | .cmd => if s.status.busy then refuseCmd s else accept v s
  | .fault => s
  | .codecCfg => guardBusy s { s with codecCfg := v.setWidth 16 }
  | .scale => guardBusy s { s with scale := v }
  | .valueLo => guardBusy s { s with value := s.value.extractLsb' 32 32 ++ v }
  | .valueHi => guardBusy s { s with value := v ++ s.value.extractLsb' 0 32 }
  | .rawLo => s
  | .rawHi => s
  | .dvalLo => s
  | .dvalHi => s
  | .cksCfg => guardBusy s { s with cksCfg := v.setWidth 19 }
  | .cks => s
  | .addr => guardBusy s { s with addr := v.setWidth 8 }
  | .oplen => guardBusy s { s with oplen := v.setWidth 9 }
  | .txlen => guardBusy s { s with txlen := v.setWidth 9 }
  | .rxlen => guardBusy s { s with rxlen := v.setWidth 9 }
  | .linkCfg => guardBusy s { s with linkCfg := v.setWidth 19 }
  | .retryCnt => s
  | .parseCfg => guardBusy s { s with parseCfg := v.setWidth 16 }
  | .result => s

/-- `MemRead(a, n)` (R74), little-endian in a buffer window (R76); `none` is a bus error (R73). -/
def memRead (a : HostAddr) (n : BusSize) (s : State) : Option Word :=
  match busTarget a n with
  | none => none
  | some (.csr r) => some (readReg r s)
  | some .reserved => some 0#32
  | some (.window b i) => some (BitVec.ofNat 32 (leValue ((s.buffer b).readBytes i (busBytes n))))

/-- `MemWrite(a, n, v)` (R75); `none` is a bus error, which changes nothing (R73). -/
def memWrite (a : HostAddr) (n : BusSize) (v : Word) (s : State) : Option State :=
  match busTarget a n with
  | none => none
  | some (.csr r) => some (writeReg r v s)
  | some .reserved => some s
  | some (.window b i) =>
    some (guardBusy s (s.setBuffer b ((s.buffer b).writeBytes i (leBytes v.toNat (busBytes n)))))

/-- The bus answers the host. -/
def respond (busError : Bool) (data : Word) (s : State) : State :=
  { s with env := { s.env with responses := s.env.responses ++ [{ busError := busError, data := data }] } }

/-- One host access (R6, R80): atomic, and an illegal one gets a bus error, read data 0 and no change of FPE state
(R73). -/
def hostAccess (acc : Access) (s : State) : State :=
  match acc with
  | .read a n =>
    match memRead a n s with
    | some d => respond false d s
    | none => respond true 0#32 s
  | .write a n v =>
    match memWrite a n v s with
    | some t => respond false 0#32 t
    | none => respond true 0#32 s

end Sys2Proof.Machine
end

