-- ==== Sys2Proof/Machine/Engine.lean ====
section
/-! DEFINITION. The engine's step (spec/43_link.md rule R172) and the events of the environment
(spec/00_scope.md rule R6, spec/20_memory.md rule R85). -/

namespace Sys2Proof.Machine

open Sys2Proof

/-- `EngineStep()` of R172: the phase PH selects the step; at START the command word in CMD is decoded, and an ILLEGAL
word faults (R102). -/
def engineStep (s : State) : StepOutcome :=
  match s.ph with
  | .start =>
    match decodeWord s.cmd with
    | .ok i => exec i s
    | .error _ => .next (raiseFault .illegalCmd s)
  | .recvStart => .next (recvStart s)
  | .wait => waitStep s
  | .drain => drainStep s

/-- The engine's turn: it steps only while STATUS.BUSY = 1 (R6, R172). -/
def engineTurn (s : State) : StepOutcome := if s.status.busy then engineStep s else .next s

/-- One event of the environment's order. -/
def perform (e : Event) (s : State) : StepOutcome :=
  match e with
  | .host a => .next (hostAccess a s)
  | .engine => engineTurn s
  | .tick => .next (clockTick s)
  | .reset => .next (resetInput s)

/-- The state with a given agenda. -/
def withAgenda (es : List Event) (s : State) : State := { s with env := { s.env with agenda := es } }

end Sys2Proof.Machine
end

