-- ==== Sys2Proof/Machine/Step.lean ====
section
/-! DEFINITION. One step of the total order of R85, and where a command word stands for the next step to run it. -/

namespace Sys2Proof.Machine

open Sys2Proof

/-- One step: the next event of the environment's agenda; with nothing left on it the engine goes on while BUSY = 1 and
the FPE is idle otherwise (R6, R85, R183, R263). -/
def step (s : State) : Host.Outcome State Fault Refusal :=
  match s.env.agenda with
  | [] => engineTurn s
  | e :: es => perform e (withAgenda es s)

/-- `s` with the command word whose bits are `w` accepted (R221) and nothing scheduled before the engine's step, so that
the very next step decodes and runs exactly that word. The engine takes its command from CMD; there is no fetch
(R22, R88). -/
def State.withFetchWord (s : State) (nbits w : Nat) : State :=
  withAgenda [] (accept (tableWord nbits w) s)

end Sys2Proof.Machine
end

