-- ==== Sys2Proof/Safety.lean ====
section
/-! DEFINITION. The terms claims are stated in: the real number a binary64 denotes and the rounding R11 asks for, the
invariant every step keeps, and what a command must leave alone. -/

namespace Sys2Proof.Machine

open Sys2Proof

/-! ### Binary64 over the rationals -/

/-- `val(f)` of R10 and R11 for a finite `f`: a subnormal is its fraction times `2^(−1074)`, and any other finite
pattern is `(2^52 + fraction) · 2^(exponent − 1075)`. -/
def f64Val (f : BitVec 64) : ℚ :=
  (if f64Neg f then -1 else 1) *
    (if f64Exp f = 0 then (f64Frac f : ℚ) * 2 ^ (-1074 : ℤ)
     else ((2 : ℚ) ^ 52 + f64Frac f) * 2 ^ ((f64Exp f : ℤ) - 1075))

/-- From this magnitude up, `rne64` is an infinity (R11). -/
def f64Limit : ℚ := 2 ^ 1024 - 2 ^ 970

/-- `f` is `rne64(x)` as R11 describes it: below the limit a finite binary64 nearest to `x`, and of two equally near
the one whose `m` is even (its lowest fraction bit is 0); from the limit up the infinity of the sign of `x`; and +0
for 0. -/
def IsRne64 (x : ℚ) (f : BitVec 64) : Prop :=
  (|x| < f64Limit → f64IsFinite f = true ∧ ∀ g : BitVec 64, f64IsFinite g = true →
    |f64Val f - x| ≤ |f64Val g - x| ∧
    (|f64Val f - x| = |f64Val g - x| → f64Val f ≠ f64Val g → f.getLsbD 0 = false)) ∧
  (f64Limit ≤ x → f = 0x7FF0000000000000#64) ∧
  (x ≤ -f64Limit → f = 0xFFF0000000000000#64) ∧
  (x = 0 → f = 0#64)

/-! ### The invariant -/

/-- What the engine phase says about the rest of the state while a command runs (R171, R172, R177, R179). -/
def PhaseInv (s : State) : Prop :=
  match s.ph with
  | .start => True
  | .recvStart => decodeWord s.cmd = .ok .query ∧ s.status.state = .sent
  | .wait => (decodeWord s.cmd = .ok .recv ∨ decodeWord s.cmd = .ok .query) ∧ s.status.state = .waiting ∧
      s.rxlen = 0#9 ∧ s.retryCnt.toNat ≤ s.maxRetries
  | .drain => (decodeWord s.cmd = .ok .recv ∨ decodeWord s.cmd = .ok .query) ∧ s.status.state = .draining ∧
      1 ≤ s.rxlen.toNat ∧ s.rxlen.toNat ≤ 256 ∧ s.retryCnt.toNat < s.maxRetries

/-- The invariant of the FPE. -/
structure StateInv (s : State) : Prop where
  /-- The buffers keep their canonical form. -/
  stage_wf : s.stage.wf = true
  txbuf_wf : s.txbuf.wf = true
  rxbuf_wf : s.rxbuf.wf = true
  /-- OP is bits 7:0 of the last accepted command word (R51). -/
  op_eq : s.op = s.cmd.extractLsb' 0 8
  /-- A running command has neither ended nor faulted (R221, R223, R224). -/
  busy_clean : s.status.busy = true → s.status.done = false ∧ s.status.err = false ∧ s.cause = .none
  /-- ERR is set only by a fault, and FAULT.CAUSE outlives its W1C (R27, R228). -/
  err_cause : s.status.err = true → s.cause ≠ .none
  /-- The phase of a running command. -/
  phase : s.status.busy = true → PhaseInv s
  /-- RESULT.DETAIL 7..15 is never produced, and LOCAL says whether a local check decided (R44, R46). -/
  detail_le : s.result.detail.toNat ≤ 6
  local_iff : s.result.isLocal = true ↔ s.result.detail ≠ 0#4

/-! ### What a step leaves alone -/

/-- The registers only the host writes and the hidden and sticky bits no command touches: equal in both states. -/
def SameHostState (s t : State) : Prop :=
  t.irqEn = s.irqEn ∧ t.cmd = s.cmd ∧ t.op = s.op ∧ t.codecCfg = s.codecCfg ∧ t.scale = s.scale ∧ t.value = s.value ∧
  t.cksCfg = s.cksCfg ∧ t.addr = s.addr ∧ t.oplen = s.oplen ∧ t.linkCfg = s.linkCfg ∧ t.parseCfg = s.parseCfg ∧
  t.status.busyErr = s.status.busyErr ∧ t.status.werr = s.status.werr ∧
  t.env.agenda = s.env.agenda ∧ t.env.responses = s.env.responses

/-- The state the link engine alone writes: equal in both states. -/
def SameLinkState (s t : State) : Prop :=
  t.status.state = s.status.state ∧ t.rxlen = s.rxlen ∧ t.retryCnt = s.retryCnt ∧ t.rxbuf = s.rxbuf ∧ t.ph = s.ph ∧
  t.timer = s.timer ∧ t.env = s.env

/-- The next event is not a reset. -/
def NoReset (s : State) : Prop := s.env.agenda.head? ≠ some .reset

/-- The next event is the engine's, scheduled or by default. -/
def EngineNext (s : State) : Prop := s.env.agenda = [] ∨ s.env.agenda.head? = some .engine

/-- The state in which an event is performed: it is taken off the agenda. -/
def popAgenda (s : State) : State := withAgenda s.env.agenda.tail s

/-- `k` steps of the machine answer the state `t`. -/
def RunsTo (k : Nat) (s t : State) : Prop := Host.Core.run Sys2Proof.core k s = .next t

end Sys2Proof.Machine
end

