-- ==== Sys2Proof/Certificates/Slice0/Obligations.lean ====
section
/-! DEFINITION. The statements for the provers. Each says which rule of the spec it formalises. Numbers are read with
`toNat`; `Memory.read` is the model's read of one buffer byte. -/

namespace Sys2Proof.Machine

open Sys2Proof

/-! ### Vocabulary of the statements -/

/-- The code table of R101, as the statements read it. -/
def commandTable : List (BitVec 8 × Instr) :=
  [(0x01#8, .encode), (0x02#8, .decode), (0x03#8, .cksum), (0x10#8, .buildLoad), (0x11#8, .buildMeter),
   (0x20#8, .send), (0x21#8, .recv), (0x22#8, .query), (0x30#8, .parseLoad), (0x31#8, .parseMeter)]

/-- R102: RSVD is not 0, or CODE is not in the table. -/
def IllegalWord (w : Word) : Prop :=
  w.extractLsb' 8 24 ≠ 0#24 ∨ ∀ e ∈ commandTable, w.extractLsb' 0 8 ≠ e.1

/-- The operand fields of R53 that a host write names, each with the bits it implements (R31 to R47). -/
def operandRegs : List (Reg × Word) :=
  [(.codecCfg, 0x0000FFFF#32), (.scale, 0xFFFFFFFF#32), (.valueLo, 0xFFFFFFFF#32), (.valueHi, 0xFFFFFFFF#32),
   (.cksCfg, 0x0007FFFF#32), (.addr, 0x000000FF#32), (.oplen, 0x000001FF#32), (.txlen, 0x000001FF#32),
   (.rxlen, 0x000001FF#32), (.linkCfg, 0x0007FFFF#32), (.parseCfg, 0x0000FFFF#32)]

/-- The registers all of whose fields are RO (R24 to R44). -/
def readOnlyRegs : List Reg :=
  [.id, .fault, .rawLo, .rawHi, .dvalLo, .dvalHi, .cks, .retryCnt, .result]

/-- The values of STATUS.STATE (R28). -/
def linkStateCodes : List (LinkState × Nat) :=
  [(.idle, 0), (.sent, 1), (.waiting, 2), (.draining, 3), (.received, 4), (.timeout, 5), (.overrun, 6)]

/-- The codes of FAULT.CAUSE (R225). -/
def causeCodes : List (FaultCause × Nat) :=
  [(.none, 0x00), (.illegalCmd, 0x01), (.cfgWidth, 0x02), (.cfgScale, 0x03), (.cfgOvf, 0x04), (.cfgBuf, 0x05),
   (.range, 0x06), (.encNotFinite, 0x07), (.encOverflow, 0x08), (.buildOplen, 0x09), (.buildCapacity, 0x0A),
   (.buildAddr, 0x0B), (.timeout, 0x0C), (.rxOverrun, 0x0D), (.response, 0x10)]

/-- The values of RESULT.KIND (R45). -/
def kindCodes : List (Kind × Nat) :=
  [(.success, 0), (.checksumError, 1), (.parameterError, 2), (.notExecutable, 3), (.invalidCommand, 4),
   (.unknownCommand, 5), (.unknownError, 6), (.fail, 7), (.ioError, 8), (.echoMismatch, 9), (.frameError, 10),
   (.none, 15)]

/-- The bytes `X[a..a+n−1]` summed modulo 256, as R140 writes it. -/
def sumMod256 (m : Memory) (a n : Nat) : Nat := (∑ i ∈ Finset.range n, (m.read (a + i)).toNat) % 256

/-- `m'` is `m` with the `n` bytes from index `a` on replaced: byte `a + i` is `f i`, and every other byte is as
before. -/
def Replaced (m m' : Memory) (a n : Nat) (f : Nat → Byte) : Prop :=
  (∀ i, i < n → m'.read (a + i) = f i) ∧ ∀ j, (j < a ∨ a + n ≤ j) → m'.read j = m.read j

/-- The place in the field of the byte of significance `i` (R124): `i` for LITTLE, `W − 1 − i` for BIG. -/
def fieldPlace (s : State) (i : Nat) : Nat := if s.orderBig then s.width - 1 - i else i

/-- The configuration checks of R120 that ENCODE and DECODE share all pass. -/
def CodecConfigOk (s : State) : Prop :=
  1 ≤ s.width ∧ s.width ≤ 8 ∧ s.scale ≠ 0#32 ∧ s.offset + s.width ≤ 256

/-- ENCODE completes with field value `n`: RAW is `n`, the field's bytes stand in STAGE in the chosen order, every other
byte of STAGE and all other state is unchanged (R121, R124). -/
def EncodeStores (s : State) (n : Nat) : Prop :=
  ∃ m : Memory, exec .encode s = .next (complete { s with stage := m, raw := BitVec.ofNat 64 n }) ∧
    (∀ i, i < s.width → m.read (s.offset + fieldPlace s i) = BitVec.ofNat 8 (n / 256 ^ i)) ∧
    (∀ j, (j < s.offset ∨ s.offset + s.width ≤ j) → m.read j = s.stage.read j)

/-- The field value of DECODE as R125's loop accumulates it from the buffer `m`. -/
def fieldSum (s : State) (m : Memory) : Nat :=
  ∑ i ∈ Finset.range s.width, (m.read (s.offset + fieldPlace s i)).toNat * 256 ^ i

/-- The environment after one poll: the rest of the poll delay has passed, one answer is consumed, one poll counted. -/
def polledEnv (s : State) : Environment :=
  { s.env with clock := s.env.clock + s.timer, answers := s.env.answers.tail, polls := s.env.polls + 1 }

/-- RXBUF holds a load frame whose length, sync byte, checksum and echo pass (R202). -/
def ValidLoadFrame (s : State) : Prop :=
  s.rxlen.toNat = 26 ∧ s.rxbuf.read 0 = 0xAA#8 ∧ sumMod256 s.rxbuf 0 25 = (s.rxbuf.read 25).toNat ∧
    s.rxbuf.read 2 = s.valopc

/-- RXBUF holds a meter frame whose length, delimiters, length field and checksum pass (R207). -/
def ValidMeterFrame (s : State) : Prop :=
  8 ≤ s.rxlen.toNat ∧ s.rxlen.toNat ≤ 256 ∧ s.rxbuf.read 0 = 0x7B#8 ∧ s.rxbuf.read (s.rxlen.toNat - 1) = 0x7D#8 ∧
    (s.rxbuf.read 1).toNat * 256 + (s.rxbuf.read 2).toNat = s.rxlen.toNat ∧
    sumMod256 s.rxbuf 1 (s.rxlen.toNat - 3) = (s.rxbuf.read (s.rxlen.toNat - 2)).toNat

/-- The RESULT register holding these four fields. -/
def resultOf (k : Kind) (isLocal : Bool) (code : Byte) (detail : BitVec 4) : Result :=
  { kind := k, isLocal := isLocal, code := code, detail := detail }

/-- The bus's answer to an access that performed, with data `d`. -/
def okResponse (d : Word) : BusResponse := { busError := false, data := d }

/-- A running RECV or QUERY that has just been accepted, with nothing scheduled but the engine. -/
def JustAccepted (i : Instr) (s : State) : Prop :=
  s.env.agenda = [] ∧ s.status.busy = true ∧ s.ph = .start ∧ decodeWord s.cmd = .ok i

end Sys2Proof.Machine

open Sys2Proof Sys2Proof.Machine

/-! ### Command words -/

/-- R101: a command word of each family, written out in bits, decodes to its command, and three illegal words do not
decode. -/
def Obligations.WrittenWordsDecode : Prop :=
  decodeWord 0b00000000000000000000000000000001#32 = .ok .encode ∧
  decodeWord 0b00000000000000000000000000000011#32 = .ok .cksum ∧
  decodeWord 0b00000000000000000000000000010001#32 = .ok .buildMeter ∧
  decodeWord 0b00000000000000000000000000100010#32 = .ok .query ∧
  decodeWord 0b00000000000000000000000000110000#32 = .ok .parseLoad ∧
  decodeWord 0b00000000000000000000000000000000#32 = .error (.unknownCode 0x00#8) ∧
  decodeWord 0b00000000000000000000000100000001#32 = .error .reservedNonzero ∧
  decodeWord 0b00000000000000000000000011111111#32 = .error (.unknownCode 0xFF#8)

/-- R103: `decode(w)` is a command exactly when RSVD is 0 and CODE is that command's, and every other word is ILLEGAL. -/
def Obligations.DecodeIsByCode : Prop :=
  ∀ w : Word, (∀ i, decodeWord w = .ok i ↔ w.extractLsb' 8 24 = 0#24 ∧ (w.extractLsb' 0 8, i) ∈ commandTable) ∧
    ((∃ e, decodeWord w = .error e) ↔ IllegalWord w)

/-- R100, R101, R104: decoding the one word a well-formed command encodes to gives the command back, and a word that
decodes is the word its command encodes to, so no bit of a word is dropped. -/
def Obligations.DecodeEncodeAgree : Prop :=
  (∀ i : Instr, i.wf = true → encode i = [encodeWord i] ∧ decodeWord (encodeWord i) = .ok i) ∧
  (∀ (w : Word) (i : Instr), decodeWord w = .ok i → encodeWord i = w) ∧
  (∀ w : Word, wellFormedWord w = true ↔ ∃ i, decodeWord w = .ok i)

/-! ### Steps -/

/-- R172: when the engine's turn comes while BUSY = 1 and the word in CMD decodes to `i`, the step is `exec i`, on the
state with the engine's event taken off the agenda. Outside phase START only RECV and QUERY run. -/
def Obligations.StepRunsTheDecodedCommand : Prop :=
  ∀ (s : State) (i : Instr), EngineNext s → s.status.busy = true → decodeWord s.cmd = .ok i →
    (s.ph = .start ∨ i = .recv ∨ i = .query) → step s = exec i (popAgenda s)

/-- R220, R228: no step ends in a machine fault or a refusal; after any FPE fault the FPE goes on. -/
def Obligations.EveryStepAnswersNext : Prop :=
  (∀ (i : Instr) (s : State), ∃ t, exec i s = .next t) ∧ ∀ s : State, ∃ t, step s = .next t

/-- R102: an illegal word written to CMD while BUSY = 0 is accepted, and its single engine step raises ILLEGAL_CMD and
changes nothing else. -/
def Obligations.IllegalWordFaults : Prop :=
  ∀ (s : State) (w : Word) (es : List Event), s.env.agenda = .host (.write 0x00C#12 .word w) :: .engine :: es →
    s.status.busy = false → IllegalWord w →
    ∃ d : Word, RunsTo 2 s { s with
      cmd := w, op := w.extractLsb' 0 8, ph := .start, cause := .illegalCmd
      status := { s.status with busy := false, done := true, err := true }
      env := { s.env with agenda := es, responses := s.env.responses ++ [okResponse d] } }

/-- R221 and R222: a CMD write while BUSY = 0 is accepted with exactly these effects; while BUSY = 1 it sets BUSY_ERR
and changes nothing else. The bus answers OK; which data the answer to a write carries is left open here. -/
def Obligations.CommandWriteAcceptedOrRefused : Prop :=
  ∀ (s : State) (w : Word) (es : List Event), s.env.agenda = .host (.write 0x00C#12 .word w) :: es →
    ∃ d : Word,
    (s.status.busy = false → step s = .next { s with
      cmd := w, op := w.extractLsb' 0 8, ph := .start, cause := .none
      status := { s.status with busy := true, done := false, err := false }
      env := { s.env with agenda := es, responses := s.env.responses ++ [okResponse d] } }) ∧
    (s.status.busy = true → step s = .next { s with
      status := { s.status with busyErr := true }
      env := { s.env with agenda := es, responses := s.env.responses ++ [okResponse d] } })

/-- R223 and R224: what the end of a command records, normally and by a fault of cause `c`. -/
def Obligations.EndOfCommandRecords : Prop :=
  ∀ s : State,
    complete s = { s with status := { s.status with busy := false, done := true, err := false }, cause := .none } ∧
    ∀ c : FaultCause, raiseFault c s =
      { s with status := { s.status with busy := false, done := true, err := true }, cause := c }

/-! ### The host bus -/

/-- R72 and R73: which accesses are legal, and that a legal one lies wholly inside its range; an illegal one completes
with a bus error, a read of it returns 0, and it changes no FPE state. -/
def Obligations.LegalAndIllegalAccesses : Prop :=
  (∀ (a : HostAddr) (n : BusSize),
    ((busTarget a n).isSome = true ↔
      a.toNat % busBytes n = 0 ∧ ((a.toNat < 0x100 ∧ n = .word) ∨ (0x100 ≤ a.toNat ∧ a.toNat < 0x400))) ∧
    ((busTarget a n).isSome = true → a.toNat % 0x100 + busBytes n ≤ 0x100)) ∧
  ∀ (s : State) (a : HostAddr) (n : BusSize) (es : List Event),
    (a.toNat % busBytes n ≠ 0 ∨ (a.toNat < 0x100 ∧ n ≠ .word) ∨ 0x400 ≤ a.toNat) →
    (s.env.agenda = .host (.read a n) :: es → step s = .next { s with
      env := { s.env with agenda := es, responses := s.env.responses ++ [{ busError := true, data := 0#32 }] } }) ∧
    ∀ v : Word, s.env.agenda = .host (.write a n v) :: es → ∃ d : Word, step s = .next { s with
      env := { s.env with agenda := es, responses := s.env.responses ++ [{ busError := true, data := d }] } }

/-- R73, R74 and R80: the step of a host read answers MemRead's value, or a bus error with data 0 where the read is
illegal, and changes nothing else. How the answers are recorded, and that a narrow value is held as 32 bits, is the model's
choice (assumption 13). -/
def Obligations.ReadsChangeNothing : Prop :=
  ∀ (s : State) (a : HostAddr) (n : BusSize) (es : List Event), s.env.agenda = .host (.read a n) :: es →
    (∀ d : Word, memRead a n s = some d → step s = .next { s with
      env := { s.env with agenda := es, responses := s.env.responses ++ [okResponse d] } }) ∧
    (memRead a n s = none → step s = .next { s with
      env := { s.env with agenda := es, responses := s.env.responses ++ [{ busError := true, data := 0#32 }] } })

/-- R75 and R80: the step of a legal host write is MemWrite's state with one OK answer more; the outside world is
otherwise as before. The data of that answer is left open (assumption 13). -/
def Obligations.WritesPerformMemWrite : Prop :=
  ∀ (s u : State) (a : HostAddr) (n : BusSize) (v : Word) (es : List Event),
    s.env.agenda = .host (.write a n v) :: es → memWrite a n v s = some u →
    ∃ d : Word, step s = .next { u with
      env := { s.env with agenda := es, responses := s.env.responses ++ [okResponse d] } }

/-- R25 to R47 with R74: what a 32-bit read of each register's offset returns, field by field at its bit place; STATE, CAUSE and KIND by the
tables of R28, R225 and R45. -/
def Obligations.RegisterReads : Prop :=
  ∀ s : State,
    memRead 0x000#12 .word s = some 0x46504531#32 ∧
    memRead 0x004#12 .word s = some (BitVec.ofNat 32 s.irqEn.toNat) ∧
    (∃ c, (s.status.state, c) ∈ linkStateCodes ∧
      memRead 0x008#12 .word s = some (BitVec.ofNat 32 (s.status.busy.toNat + 2 * s.status.done.toNat +
        4 * s.status.err.toNat + 8 * s.status.busyErr.toNat + 16 * s.status.werr.toNat + 256 * c))) ∧
    memRead 0x00C#12 .word s = some s.cmd ∧
    (∃ c, (s.cause, c) ∈ causeCodes ∧ memRead 0x010#12 .word s = some (BitVec.ofNat 32 c)) ∧
    memRead 0x014#12 .word s = some (BitVec.ofNat 32 (s.width + 16 * s.orderBig.toNat + 32 * s.ovf.toNat +
      128 * s.srcStage.toNat + 256 * s.offset)) ∧
    memRead 0x018#12 .word s = some s.scale ∧
    memRead 0x01C#12 .word s = some (BitVec.ofNat 32 s.value.toNat) ∧
    memRead 0x020#12 .word s = some (BitVec.ofNat 32 (s.value.toNat / 2 ^ 32)) ∧
    memRead 0x024#12 .word s = some (BitVec.ofNat 32 s.raw.toNat) ∧
    memRead 0x028#12 .word s = some (BitVec.ofNat 32 (s.raw.toNat / 2 ^ 32)) ∧
    memRead 0x02C#12 .word s = some (BitVec.ofNat 32 s.dval.toNat) ∧
    memRead 0x030#12 .word s = some (BitVec.ofNat 32 (s.dval.toNat / 2 ^ 32)) ∧
    memRead 0x034#12 .word s = some (BitVec.ofNat 32 (s.cksStart + 256 * s.cksLen + 2 ^ 17 * s.cksBuf.toNat)) ∧
    memRead 0x038#12 .word s = some (BitVec.ofNat 32 s.cks.toNat) ∧
    memRead 0x03C#12 .word s = some (BitVec.ofNat 32 s.addr.toNat) ∧
    memRead 0x040#12 .word s = some (BitVec.ofNat 32 s.oplen.toNat) ∧
    memRead 0x044#12 .word s = some (BitVec.ofNat 32 s.txlen.toNat) ∧
    memRead 0x048#12 .word s = some (BitVec.ofNat 32 s.rxlen.toNat) ∧
    memRead 0x04C#12 .word s = some (BitVec.ofNat 32 (s.maxRetries + 2 ^ 16 * s.baudSel.toNat)) ∧
    memRead 0x050#12 .word s = some (BitVec.ofNat 32 s.retryCnt.toNat) ∧
    memRead 0x054#12 .word s = some (BitVec.ofNat 32 (s.valopc.toNat + 256 * s.resOfs)) ∧
    ∃ c, (s.result.kind, c) ∈ kindCodes ∧
      memRead 0x058#12 .word s = some (BitVec.ofNat 32 (c + 16 * s.result.isLocal.toNat +
        256 * s.result.code.toNat + 65536 * s.result.detail.toNat))

/-- R24: a reserved CSR offset reads 0, and a write to it or to a register whose fields are all RO has no effect and no
bus error, busy or not. -/
def Obligations.ReservedAndReadOnlyIgnoreWrites : Prop :=
  ∀ (s : State) (v : Word),
    (∀ a : HostAddr, 0x05C ≤ a.toNat → a.toNat < 0x100 → a.toNat % 4 = 0 →
      memRead a .word s = some 0#32 ∧ memWrite a .word v s = some s) ∧
    ∀ r ∈ readOnlyRegs, memWrite (regOffset r) .word v s = some s

/-- R23, R24 and R75: a write to an operand register while BUSY = 0, or to CTRL at any time, stores the implemented bits
as written: the register then reads as the value with its reserved bits 0. Every other register reads as before, and
no buffer changes. -/
def Obligations.OperandWritesStoreImplementedBits : Prop :=
  ∀ (s : State) (r : Reg) (mask v : Word),
    ((r, mask) ∈ operandRegs ∧ s.status.busy = false) ∨ (r = .ctrl ∧ mask = 0x00000001#32) →
    ∃ t, memWrite (regOffset r) .word v s = some t ∧ readReg r t = v &&& mask ∧
      (∀ q, q ≠ r → readReg q t = readReg q s) ∧
      t.stage = s.stage ∧ t.txbuf = s.txbuf ∧ t.rxbuf = s.rxbuf ∧ t.op = s.op ∧ t.ph = s.ph ∧ t.timer = s.timer ∧
      t.env = s.env

/-- R27: a write to STATUS clears DONE, ERR, BUSY_ERR and WERR where it has a 1 in bits 1 to 4, leaves them where it has
a 0, and changes nothing else, busy or not. -/
def Obligations.StatusWriteClearsOnes : Prop :=
  ∀ (s : State) (v : Word), ∃ st : Status, memWrite 0x008#12 .word v s = some { s with status := st } ∧
    st.busy = s.status.busy ∧ st.state = s.status.state ∧
    (st.done = true ↔ s.status.done = true ∧ v.getLsbD 1 = false) ∧
    (st.err = true ↔ s.status.err = true ∧ v.getLsbD 2 = false) ∧
    (st.busyErr = true ↔ s.status.busyErr = true ∧ v.getLsbD 3 = false) ∧
    (st.werr = true ↔ s.status.werr = true ∧ v.getLsbD 4 = false)

/-- R53: while BUSY = 1 a write to any operand register or any buffer byte is dropped and sets WERR. -/
def Obligations.BusyWritesAreDropped : Prop :=
  ∀ (s : State) (a : HostAddr) (n : BusSize) (v : Word), s.status.busy = true →
    ((∃ e ∈ operandRegs, a = regOffset e.1 ∧ n = .word) ∨
      (0x100 ≤ a.toNat ∧ a.toNat < 0x400 ∧ a.toNat % busBytes n = 0)) →
    memWrite a n v s = some { s with status := { s.status with werr := true } }

/-- R74, R76 and R77: a read of a buffer window is little-endian. That the answer to a 1- or 2-byte read is held as 32
bits whose upper bits are 0 is the model's choice (assumption 13, DESIGN CHOICE). -/
def Obligations.WindowReadsLittleEndian : Prop :=
  ∀ (s : State) (b : BufId) (base : Nat) (a : HostAddr),
    (b, base) ∈ [(BufId.stage, 0x100), (BufId.txbuf, 0x200), (BufId.rxbuf, 0x300)] → base ≤ a.toNat →
    a.toNat < base + 0x100 →
    memRead a .byte s = some (0#24 ++ (s.buffer b).read (a.toNat - base)) ∧
    (a.toNat % 2 = 0 → memRead a .half s =
      some (0#16 ++ (s.buffer b).read (a.toNat - base + 1) ++ (s.buffer b).read (a.toNat - base))) ∧
    (a.toNat % 4 = 0 → memRead a .word s =
      some ((s.buffer b).read (a.toNat - base + 3) ++ (s.buffer b).read (a.toNat - base + 2) ++
        (s.buffer b).read (a.toNat - base + 1) ++ (s.buffer b).read (a.toNat - base)))

/-- R75 and R77: a window write while BUSY = 0 stores the bytes of the value, lowest first, at the addressed buffer
bytes; every other byte of every buffer is as before, and nothing else changes. -/
def Obligations.WindowWritesStoreBytes : Prop :=
  ∀ (s : State) (b : BufId) (base : Nat) (a : HostAddr) (n : BusSize) (v : Word),
    (b, base) ∈ [(BufId.stage, 0x100), (BufId.txbuf, 0x200), (BufId.rxbuf, 0x300)] → base ≤ a.toNat →
    a.toNat < base + 0x100 → a.toNat % busBytes n = 0 → s.status.busy = false → (s.buffer b).wf = true →
    ∃ m : Memory, memWrite a n v s = some (s.setBuffer b m) ∧
      Replaced (s.buffer b) m (a.toNat - base) (busBytes n) (fun k => v.extractLsb' (8 * k) 8)

/-! ### Reset and the invariant -/

/-- R250 and R253 with the table of R54: the step that asserts `rst` gives every piece of FPE state its reset value,
whatever the state was, and leaves what the link and the host hold. -/
def Obligations.ResetSetsEveryRegister : Prop :=
  ∀ (s : State) (es : List Event), s.env.agenda = .reset :: es →
    ∃ t, step s = .next t ∧
      (∀ r, readReg r t = match r with
        | .id => 0x46504531#32
        | .codecCfg => 0x00000001#32
        | .scale => 0x00000001#32
        | .parseCfg => 0x00000312#32
        | .result => 0x0000000F#32
        | _ => 0#32) ∧
      (∀ b i, (t.buffer b).read i = 0x00#8) ∧ t.op = 0x00#8 ∧ t.ph = .start ∧ t.timer = 0 ∧
      t.irq = false ∧ t.baudSel = 0#3 ∧ t.env = { s.env with agenda := es }

/-- The state after reset satisfies the invariant. -/
def Obligations.ResetSatisfiesInvariant : Prop := StateInv State.reset

/-- Every step keeps the invariant: canonical buffers, OP equal to the code in CMD, a running command that has neither
ended nor faulted, the phase's relation to STATE, RXLEN and RETRY_CNT, and the legal RESULT details. -/
def Obligations.StepKeepsInvariant : Prop :=
  ∀ s t : State, StateInv s → step s = .next t → StateInv t

/-! ### Rules of the whole machine -/

/-- R53, R57, R86: from a busy state no step but a reset changes an operand register, the command word, or the baud
rate; and while the command is still running after the step, STAGE, TXBUF and TXLEN are as before too. -/
def Obligations.OperandsFixedWhileBusy : Prop :=
  ∀ s t : State, s.status.busy = true → NoReset s → step s = .next t →
    t.codecCfg = s.codecCfg ∧ t.scale = s.scale ∧ t.value = s.value ∧ t.cksCfg = s.cksCfg ∧ t.addr = s.addr ∧
    t.oplen = s.oplen ∧ t.linkCfg = s.linkCfg ∧ t.parseCfg = s.parseCfg ∧ t.cmd = s.cmd ∧ t.op = s.op ∧
    t.baudSel = s.baudSel ∧
    (t.status.busy = true → t.stage = s.stage ∧ t.txbuf = s.txbuf ∧ t.txlen = s.txlen)

/-- R44: only PARSE_LOAD and PARSE_METER write RESULT. -/
def Obligations.OnlyParsersWriteResult : Prop :=
  ∀ s t : State, NoReset s → step s = .next t → t.result ≠ s.result →
    s.status.busy = true ∧ EngineNext s ∧ (decodeWord s.cmd = .ok .parseLoad ∨ decodeWord s.cmd = .ok .parseMeter)

/-- R28 and R171: only SEND, RECV and QUERY change STATE, and each transition happens in the engine step of its row:
SENT by SEND and by QUERY's transmit step, WAITING by RECV's start step and by QUERY's receive start step, and the
others in a WAIT or DRAIN step of RECV or QUERY. None leads back to IDLE except reset. -/
def Obligations.LinkStateTransitions : Prop :=
  ∀ s t : State, StateInv s → NoReset s → step s = .next t → t.status.state ≠ s.status.state →
    s.status.busy = true ∧ EngineNext s ∧
    ((t.status.state = .sent ∧ s.ph = .start ∧ (decodeWord s.cmd = .ok .send ∨ decodeWord s.cmd = .ok .query)) ∨
     (t.status.state = .waiting ∧ ((s.ph = .start ∧ decodeWord s.cmd = .ok .recv) ∨
        (s.ph = .recvStart ∧ decodeWord s.cmd = .ok .query))) ∨
     ((decodeWord s.cmd = .ok .recv ∨ decodeWord s.cmd = .ok .query) ∧
        ((s.ph = .wait ∧ (s.status.state, t.status.state) ∈
            [(LinkState.waiting, LinkState.timeout), (.waiting, .draining), (.waiting, .overrun)]) ∨
         (s.ph = .drain ∧ (s.status.state, t.status.state) ∈
            [(LinkState.draining, LinkState.received), (.draining, .overrun)]))))

/-- R184, R173, R175: bytes are transmitted only by the START step of SEND or QUERY, and they are
`TXBUF[0..TXLEN−1]` in index order. -/
def Obligations.OnlySendAndQueryTransmit : Prop :=
  ∀ s t : State, step s = .next t → t.env.sent ≠ s.env.sent →
    s.status.busy = true ∧ EngineNext s ∧ s.ph = .start ∧
    (decodeWord s.cmd = .ok .send ∨ decodeWord s.cmd = .ok .query) ∧
    ∃ bs : List Byte, t.env.sent = s.env.sent ++ [bs] ∧ bs.length = s.txlen.toNat ∧
      1 ≤ s.txlen.toNat ∧ s.txlen.toNat ≤ 256 ∧ ∀ (k : Nat) (h : k < bs.length), bs[k] = s.txbuf.read k

/-- R55, R220, R223, R224: BUSY falls only by the engine step that ends the command, which sets DONE, and sets ERR
exactly when it records a cause. -/
def Obligations.BusyFallsOnlyAtCommandEnd : Prop :=
  ∀ s t : State, NoReset s → s.status.busy = true → step s = .next t → t.status.busy = false →
    EngineNext s ∧ t.status.done = true ∧ (t.status.err = true ↔ t.cause ≠ .none)

/-- R229: BUSY_ERR and WERR are cleared only by a W1C write or reset. -/
def Obligations.StickyBitsClearedOnlyByHost : Prop :=
  ∀ s t : State, NoReset s → step s = .next t →
    (s.status.busyErr = true → t.status.busyErr = false →
      ∃ v : Word, s.env.agenda.head? = some (.host (.write 0x008#12 .word v)) ∧ v.getLsbD 3 = true) ∧
    (s.status.werr = true → t.status.werr = false →
      ∃ v : Word, s.env.agenda.head? = some (.host (.write 0x008#12 .word v)) ∧ v.getLsbD 4 = true)

/-- R230: `irq` rises only at a command's end with IRQ_EN = 1 or by setting IRQ_EN while DONE = 1, and falls only by a
W1C write of DONE, by acceptance, by clearing IRQ_EN, or by reset. -/
def Obligations.IrqRisesAndFalls : Prop :=
  ∀ s t : State, NoReset s → step s = .next t →
    (s.irq = false → t.irq = true →
      (EngineNext s ∧ s.status.busy = true ∧ t.status.busy = false ∧ s.irqEn = true) ∨
      (∃ v : Word, s.env.agenda.head? = some (.host (.write 0x004#12 .word v)) ∧ v.getLsbD 0 = true ∧
        s.status.done = true)) ∧
    (s.irq = true → t.irq = false →
      ∃ (a : HostAddr) (v : Word), s.env.agenda.head? = some (.host (.write a .word v)) ∧
        ((a = 0x008#12 ∧ v.getLsbD 1 = true) ∨ (a = 0x00C#12 ∧ s.status.busy = false) ∨
          (a = 0x004#12 ∧ v.getLsbD 0 = false)))

/-- R12, R82 and R150: what each command leaves alone, whatever its outcome. The host's registers, the sticky bits and
the bus's answers are unchanged by every command; each other piece of state only by the commands named. -/
def Obligations.CommandsTouchOnlyTheirOwnState : Prop :=
  ∀ (i : Instr) (s t : State), exec i s = .next t →
    SameHostState s t ∧
    (i ≠ .encode → t.stage = s.stage) ∧
    (i ≠ .encode → i ≠ .decode → t.raw = s.raw) ∧
    (i ≠ .decode → t.dval = s.dval) ∧
    (i ≠ .cksum → t.cks = s.cks) ∧
    (i ≠ .buildLoad → i ≠ .buildMeter → t.txbuf = s.txbuf ∧ t.txlen = s.txlen) ∧
    (i ≠ .parseLoad → i ≠ .parseMeter → t.result = s.result) ∧
    (i ≠ .send → i ≠ .recv → i ≠ .query → SameLinkState s t) ∧
    (i = .send → t.rxlen = s.rxlen ∧ t.retryCnt = s.retryCnt ∧ t.rxbuf = s.rxbuf ∧ t.ph = s.ph ∧ t.timer = s.timer)

/-! ### The codec -/

/-- R11: `rne64` of a rational is the nearest binary64, ties to even, with the infinities and +0 as R11 says. -/
def Obligations.RoundingIsNearestEven : Prop :=
  ∀ (neg : Bool) (num den : Nat), 0 < den →
    IsRne64 ((if neg then -1 else 1) * ((num : ℚ) / den)) (rne64 neg num den)

/-- R122: the scaled product is `rne64(val(f) × S)` for every finite `f` and every 32-bit `S`, and its integer part is
rounded toward zero. -/
def Obligations.ScaledProductIsRounded : Prop :=
  ∀ (f : BitVec 64) (S : BitVec 32), f64IsFinite f = true →
    IsRne64 (f64Val f * S.toNat) (scaledProduct f S.toNat) ∧
    (f64IsFinite (scaledProduct f S.toNat) = true →
      f64Trunc (scaledProduct f S.toNat) =
        if 0 ≤ f64Val (scaledProduct f S.toNat) then ⌊f64Val (scaledProduct f S.toNat)⌋
        else ⌈f64Val (scaledProduct f S.toNat)⌉)

/-- R121, R123, R124: ENCODE of a finite value whose truncated product fits the field completes, stores the field and
writes RAW. -/
def Obligations.EncodeStoresTheField : Prop :=
  ∀ s : State, CodecConfigOk s → s.ovf ≠ 3#2 → f64IsFinite s.value = true → s.stage.wf = true →
    f64IsInf (scaledProduct s.value s.scale.toNat) = false →
    0 ≤ f64Trunc (scaledProduct s.value s.scale.toNat) →
    f64Trunc (scaledProduct s.value s.scale.toNat) < 2 ^ (8 * s.width) →
    EncodeStores s (f64Trunc (scaledProduct s.value s.scale.toNat)).toNat

/-- R123: a product outside the field, or infinite, under each overflow policy. -/
def Obligations.EncodeOverflowPolicies : Prop :=
  ∀ s : State, CodecConfigOk s → f64IsFinite s.value = true → s.stage.wf = true →
    (f64IsInf (scaledProduct s.value s.scale.toNat) = true →
      (s.ovf = 0#2 ∨ s.ovf = 1#2 → exec .encode s = .next (raiseFault .encOverflow s)) ∧
      (s.ovf = 2#2 → f64Neg (scaledProduct s.value s.scale.toNat) = true → EncodeStores s 0) ∧
      (s.ovf = 2#2 → f64Neg (scaledProduct s.value s.scale.toNat) = false →
        EncodeStores s (2 ^ (8 * s.width) - 1))) ∧
    (f64IsInf (scaledProduct s.value s.scale.toNat) = false →
      (f64Trunc (scaledProduct s.value s.scale.toNat) < 0 ∨
        2 ^ (8 * s.width) ≤ f64Trunc (scaledProduct s.value s.scale.toNat)) →
      (s.ovf = 0#2 → exec .encode s = .next (raiseFault .encOverflow s)) ∧
      (s.ovf = 1#2 → ∃ n : Nat, n < 2 ^ (8 * s.width) ∧
        (n : Int) = f64Trunc (scaledProduct s.value s.scale.toNat) % 2 ^ (8 * s.width) ∧ EncodeStores s n) ∧
      (s.ovf = 2#2 → f64Trunc (scaledProduct s.value s.scale.toNat) < 0 → EncodeStores s 0) ∧
      (s.ovf = 2#2 → 0 ≤ f64Trunc (scaledProduct s.value s.scale.toNat) →
        EncodeStores s (2 ^ (8 * s.width) - 1)))

/-- R120, R121 and R227: the codec's configuration faults in their order, for ENCODE and DECODE, and ENC_NOT_FINITE. A
fault changes nothing but what `raise Fault` records. -/
def Obligations.CodecFaults : Prop :=
  ∀ (s : State) (i : Instr), i = .encode ∨ i = .decode →
    (s.width = 0 ∨ 8 < s.width → exec i s = .next (raiseFault .cfgWidth s)) ∧
    (1 ≤ s.width → s.width ≤ 8 → s.scale = 0#32 → exec i s = .next (raiseFault .cfgScale s)) ∧
    (1 ≤ s.width → s.width ≤ 8 → s.scale ≠ 0#32 → i = .encode → s.ovf = 3#2 →
      exec i s = .next (raiseFault .cfgOvf s)) ∧
    (1 ≤ s.width → s.width ≤ 8 → s.scale ≠ 0#32 → (i = .decode ∨ s.ovf ≠ 3#2) → 256 < s.offset + s.width →
      exec i s = .next (raiseFault .range s)) ∧
    (CodecConfigOk s → i = .encode → s.ovf ≠ 3#2 → (f64IsNaN s.value = true ∨ f64IsInf s.value = true) →
      exec i s = .next (raiseFault .encNotFinite s))

/-- R125: DECODE reads RXBUF when SRC is 0 and STAGE when SRC is 1, and completes with RAW the field value its loop
accumulates and DVAL that value over SCALE, rounded; OVF is not checked and no buffer changes. -/
def Obligations.DecodeReadsTheField : Prop :=
  ∀ (s : State) (m : Memory), CodecConfigOk s → (s.srcStage, m) ∈ [(false, s.rxbuf), (true, s.stage)] →
    exec .decode s = .next (complete { s with
      raw := BitVec.ofNat 64 (fieldSum s m), dval := rne64 false (fieldSum s m) s.scale.toNat }) ∧
    fieldSum s m < 2 ^ (8 * s.width)

/-- R126: the decoded value is the real quotient rounded once, finite and non-negative. -/
def Obligations.DecodedValueIsRoundedQuotient : Prop :=
  ∀ s t : State, CodecConfigOk s → exec .decode s = .next t →
    IsRne64 ((t.raw.toNat : ℚ) / s.scale.toNat) t.dval ∧ f64IsFinite t.dval = true ∧ f64Neg t.dval = false

/-- R127, law 1: a DECODE of what a successful ENCODE wrote, with the same WIDTH, ORDER and OFFSET, SRC = 1 and any
legal SCALE, gives the same RAW. -/
def Obligations.EncodeDecodeRoundTrip : Prop :=
  ∀ s t u : State, s.stage.wf = true → exec .encode s = .next t → t.cause = .none →
    u.width = s.width → u.orderBig = s.orderBig → u.offset = s.offset → u.srcStage = true → u.scale ≠ 0#32 →
    (∀ i, i < s.width → u.stage.read (s.offset + i) = t.stage.read (s.offset + i)) →
    ∃ v, exec .decode u = .next v ∧ v.cause = .none ∧ v.raw = t.raw

/-- R127, law 2: the encoded field is within one unit of the value, exactly when the product was exact, and within one
unit and the product's rounding otherwise. -/
def Obligations.EncodeIsWithinOneUnit : Prop :=
  ∀ s t : State, exec .encode s = .next t → t.cause = .none →
    f64IsFinite (scaledProduct s.value s.scale.toNat) = true →
    0 ≤ f64Trunc (scaledProduct s.value s.scale.toNat) →
    f64Trunc (scaledProduct s.value s.scale.toNat) < 2 ^ (8 * s.width) →
    (f64Val (scaledProduct s.value s.scale.toNat) = f64Val s.value * s.scale.toNat →
      (0 ≤ f64Val s.value → 0 ≤ f64Val s.value * s.scale.toNat - t.raw.toNat ∧
        f64Val s.value * s.scale.toNat - t.raw.toNat < 1) ∧
      |(t.raw.toNat : ℚ) / s.scale.toNat - f64Val s.value| < 1 / s.scale.toNat) ∧
    |(t.raw.toNat : ℚ) / s.scale.toNat - f64Val s.value| < 1 / s.scale.toNat + |f64Val s.value| / 2 ^ 53

/-! ### The checksum unit -/

/-- R141: CKSUM's two faults in their order, and its result; nothing but CKS and the end-of-command state changes. -/
def Obligations.CksumSumsTheRange : Prop :=
  ∀ s : State,
    (s.cksBuf = 3#2 → exec .cksum s = .next (raiseFault .cfgBuf s)) ∧
    (s.cksBuf ≠ 3#2 → 256 < s.cksStart + s.cksLen → exec .cksum s = .next (raiseFault .range s)) ∧
    ∀ (b : BufId), (s.cksBuf, b) ∈ [(0#2, BufId.stage), (1#2, .txbuf), (2#2, .rxbuf)] →
      s.cksStart + s.cksLen ≤ 256 →
      ∃ c : Byte, exec .cksum s = .next (complete { s with cks := c }) ∧
        c.toNat = sumMod256 (s.buffer b) s.cksStart s.cksLen

/-- R142: changing exactly one byte in the summed range changes the checksum. -/
def Obligations.ChecksumDetectsOneByte : Prop :=
  ∀ (m m' : Memory) (a n k : Nat), a ≤ k → k < a + n → m.read k ≠ m'.read k →
    (∀ j, j ≠ k → m.read j = m'.read j) → m.sum8 a n ≠ m'.sum8 a n

/-! ### The frame builder -/

/-- R151: BUILD_LOAD writes the 26-byte frame of R106 and TXLEN = 26; bytes from index 26 on and all other state keep
their values. -/
def Obligations.BuildLoadWritesTheFrame : Prop :=
  ∀ s : State, 1 ≤ s.oplen.toNat → s.oplen.toNat ≤ 23 → (s.addr.toNat ≤ 31 ∨ s.addr = 0xFF#8) →
    s.txbuf.wf = true →
    ∃ m : Memory, exec .buildLoad s = .next (complete { s with txbuf := m, txlen := 26#9 }) ∧
      m.read 0 = 0xAA#8 ∧ m.read 1 = s.addr ∧
      (∀ i, i < s.oplen.toNat → m.read (2 + i) = s.stage.read i) ∧
      (∀ j, 2 + s.oplen.toNat ≤ j → j ≤ 24 → m.read j = 0x00#8) ∧
      (m.read 25).toNat = sumMod256 m 0 25 ∧
      (∀ j, 26 ≤ j → m.read j = s.txbuf.read j)

/-- R152: BUILD_METER writes the frame of R108 with its big-endian length, and TXLEN; bytes from index L on and all
other state keep their values. -/
def Obligations.BuildMeterWritesTheFrame : Prop :=
  ∀ s : State, 2 ≤ s.oplen.toNat → s.oplen.toNat ≤ 250 → 1 ≤ s.addr.toNat → s.addr.toNat ≤ 254 →
    s.txbuf.wf = true →
    ∃ m : Memory,
      exec .buildMeter s = .next (complete { s with txbuf := m, txlen := BitVec.ofNat 9 (s.oplen.toNat + 6) }) ∧
      m.read 0 = 0x7B#8 ∧
      (m.read 1).toNat = (s.oplen.toNat + 6) / 256 ∧ (m.read 2).toNat = (s.oplen.toNat + 6) % 256 ∧
      m.read 3 = s.addr ∧
      (∀ i, i < s.oplen.toNat → m.read (4 + i) = s.stage.read i) ∧
      (m.read (s.oplen.toNat + 4)).toNat = sumMod256 m 1 (s.oplen.toNat + 3) ∧
      m.read (s.oplen.toNat + 5) = 0x7D#8 ∧
      (∀ j, s.oplen.toNat + 6 ≤ j → m.read j = s.txbuf.read j)

/-- R151, R152 and R153: the builders' faults, the length checks before the address check. On a fault TXBUF, TXLEN and
everything but the fault record keep their values. -/
def Obligations.BuilderFaults : Prop :=
  ∀ s : State,
    (s.oplen.toNat = 0 → exec .buildLoad s = .next (raiseFault .buildOplen s)) ∧
    (23 < s.oplen.toNat → exec .buildLoad s = .next (raiseFault .buildCapacity s)) ∧
    (1 ≤ s.oplen.toNat → s.oplen.toNat ≤ 23 → 32 ≤ s.addr.toNat → s.addr.toNat ≤ 254 →
      exec .buildLoad s = .next (raiseFault .buildAddr s)) ∧
    (s.oplen.toNat < 2 → exec .buildMeter s = .next (raiseFault .buildOplen s)) ∧
    (250 < s.oplen.toNat → exec .buildMeter s = .next (raiseFault .buildCapacity s)) ∧
    (2 ≤ s.oplen.toNat → s.oplen.toNat ≤ 250 → (s.addr = 0x00#8 ∨ s.addr = 0xFF#8) →
      exec .buildMeter s = .next (raiseFault .buildAddr s))

/-- R154: the frame a builder writes, its length and its fault are a function of ADDR, OPLEN and STAGE[0..OPLEN−1]
alone. -/
def Obligations.BuildersAreDeterministic : Prop :=
  ∀ (i : Instr) (s u t v : State), (i = .buildLoad ∨ i = .buildMeter) →
    s.txbuf.wf = true → u.txbuf.wf = true → s.addr = u.addr → s.oplen = u.oplen →
    (∀ k, k < s.oplen.toNat → s.stage.read k = u.stage.read k) →
    exec i s = .next t → exec i u = .next v →
    t.cause = v.cause ∧
    (t.cause = .none → t.txlen = v.txlen ∧ ∀ k, k < t.txlen.toNat → t.txbuf.read k = v.txbuf.read k)

/-- R155: the length a meter frame embeds equals TXLEN, OPLEN − 2 + 8, and the number of bytes SEND then transmits; a
load frame is 26 bytes. -/
def Obligations.EmbeddedLengthIsTransmittedLength : Prop :=
  ∀ (i : Instr) (s t : State), (i = .buildLoad ∨ i = .buildMeter) → s.txbuf.wf = true → exec i s = .next t →
    t.cause = .none →
    (i = .buildLoad → t.txlen.toNat = 26) ∧
    (i = .buildMeter → (t.txbuf.read 1).toNat * 256 + (t.txbuf.read 2).toNat = t.txlen.toNat ∧
      t.txlen.toNat = (s.oplen.toNat - 2) + 8) ∧
    ∃ (v : State) (bs : List Byte), exec .send t = .next v ∧ v.cause = .none ∧
      v.env.sent = s.env.sent ++ [bs] ∧ bs.length = t.txlen.toNat

/-- R143: a frame a builder wrote, received unchanged, passes the parser's local checks. A load frame passes the echo
check when VALOPC is the frame's opcode, and is classified by its byte 3; a meter frame is classified by its result byte,
for every RES_OFS in the opcode-and-payload region. -/
def Obligations.BuiltFramesAreVerified : Prop :=
  ∀ s t u : State, s.txbuf.wf = true → t.cause = .none → u.rxlen = t.txlen →
    (∀ k, k < t.txlen.toNat → u.rxbuf.read k = t.txbuf.read k) →
    (exec .buildLoad s = .next t → u.valopc = s.stage.read 0 →
      ∃ v, exec .parseLoad u = .next v ∧
        v.result = resultOf (classifyLoad (u.rxbuf.read 3)) false (u.rxbuf.read 3) 0#4) ∧
    (exec .buildMeter s = .next t → 3 ≤ u.resOfs → u.resOfs + 4 ≤ t.txlen.toNat →
      ∃ v, exec .parseMeter u = .next v ∧
        v.result = resultOf (classifyMeter (u.rxbuf.read (u.rxlen.toNat - u.resOfs))) false
          (u.rxbuf.read (u.rxlen.toNat - u.resOfs)) 0#4)

/-! ### The link engine -/

/-- R173: SEND hands exactly `TXBUF[0..TXLEN−1]` to the link and shows SENT, or faults RANGE with the link untouched and
STATE unchanged. -/
def Obligations.SendTransmits : Prop :=
  ∀ s : State,
    (1 ≤ s.txlen.toNat → s.txlen.toNat ≤ 256 →
      ∃ bs : List Byte,
        exec .send s = .next (complete { s with
          status := { s.status with state := .sent }, env := { s.env with sent := s.env.sent ++ [bs] } }) ∧
        bs.length = s.txlen.toNat ∧ ∀ (k : Nat) (h : k < bs.length), bs[k] = s.txbuf.read k) ∧
    (s.txlen.toNat = 0 ∨ 256 < s.txlen.toNat → exec .send s = .next (raiseFault .range s))

/-- R175, step 1: QUERY's transmit step, or RANGE with nothing transmitted. -/
def Obligations.QueryTransmits : Prop :=
  ∀ s : State, s.ph = .start →
    (1 ≤ s.txlen.toNat → s.txlen.toNat ≤ 256 →
      ∃ bs : List Byte,
        exec .query s = .next { s with
          status := { s.status with state := .sent }, env := { s.env with sent := s.env.sent ++ [bs] }
          ph := .recvStart } ∧
        bs.length = s.txlen.toNat ∧ ∀ (k : Nat) (h : k < bs.length), bs[k] = s.txbuf.read k) ∧
    (s.txlen.toNat = 0 ∨ 256 < s.txlen.toNat → exec .query s = .next (raiseFault .range s))

/-- R174: `recv_start()`, as RECV's first step and as QUERY's second: RXLEN and RETRY_CNT become 0, STATE WAITING; no
poll is made, and RXBUF is not cleared. That the timer becomes 0 is the model's choice of how the first poll has no
minimum delay (assumption 5, DESIGN CHOICE); R174 does not name the timer. -/
def Obligations.ReceivePhaseStarts : Prop :=
  ∀ (i : Instr) (s : State), (i = .recv ∧ s.ph = .start) ∨ (i = .query ∧ s.ph = .recvStart) →
    exec i s = .next { s with
      status := { s.status with state := .waiting }, rxlen := 0#9, retryCnt := 0#16, ph := .wait, timer := 0 }

/-- R177, R179 and R180: the WAIT step of RECV and QUERY: TIMEOUT without a poll when the budget is used up; else one
poll, which is a retry, or the first bytes of the reply, or an overrun. -/
def Obligations.WaitStepOutcomes : Prop :=
  ∀ (i : Instr) (s : State), i = .recv ∨ i = .query → s.ph = .wait →
    (s.maxRetries ≤ s.retryCnt.toNat →
      exec i s = .next (raiseFault .timeout { s with
        status := { s.status with state := .timeout }, timer := 0
        env := { s.env with clock := s.env.clock + s.timer } })) ∧
    (s.retryCnt.toNat < s.maxRetries → pollAnswer s.env = [] →
      ∃ c : BitVec 16, c.toNat = s.retryCnt.toNat + 1 ∧
        exec i s = .next { s with retryCnt := c, timer := pollDelay s, env := polledEnv s }) ∧
    ∀ bs : List Byte, s.retryCnt.toNat < s.maxRetries → pollAnswer s.env = bs → bs ≠ [] → s.rxbuf.wf = true →
      (s.rxlen.toNat + bs.length ≤ 256 →
        ∃ m : Memory, exec i s = .next { s with
            rxbuf := m, rxlen := BitVec.ofNat 9 (s.rxlen.toNat + bs.length), ph := .drain
            status := { s.status with state := .draining }, timer := pollDelay s, env := polledEnv s } ∧
          Replaced s.rxbuf m s.rxlen.toNat bs.length (fun k => bs.getD k 0x00#8)) ∧
      (s.rxlen.toNat ≤ 256 → 256 < s.rxlen.toNat + bs.length →
        ∃ m : Memory, exec i s = .next (raiseFault .rxOverrun { s with
            rxbuf := m, rxlen := 256#9
            status := { s.status with state := .overrun }, timer := pollDelay s, env := polledEnv s }) ∧
          Replaced s.rxbuf m s.rxlen.toNat (256 - s.rxlen.toNat) (fun k => bs.getD k 0x00#8))

/-- R178 and R179: the DRAIN step of RECV and QUERY: the idle gap ends the reply normally; else the bytes are stored,
or overrun. -/
def Obligations.DrainStepOutcomes : Prop :=
  ∀ (i : Instr) (s : State), i = .recv ∨ i = .query → s.ph = .drain →
    (pollAnswer s.env = [] →
      exec i s = .next (complete { s with
        status := { s.status with state := .received }, timer := pollDelay s, env := polledEnv s })) ∧
    ∀ bs : List Byte, pollAnswer s.env = bs → bs ≠ [] → s.rxbuf.wf = true →
      (s.rxlen.toNat + bs.length ≤ 256 →
        ∃ m : Memory, exec i s = .next { s with
            rxbuf := m, rxlen := BitVec.ofNat 9 (s.rxlen.toNat + bs.length)
            timer := pollDelay s, env := polledEnv s } ∧
          Replaced s.rxbuf m s.rxlen.toNat bs.length (fun k => bs.getD k 0x00#8)) ∧
      (s.rxlen.toNat ≤ 256 → 256 < s.rxlen.toNat + bs.length →
        ∃ m : Memory, exec i s = .next (raiseFault .rxOverrun { s with
            rxbuf := m, rxlen := 256#9
            status := { s.status with state := .overrun }, timer := pollDelay s, env := polledEnv s }) ∧
          Replaced s.rxbuf m s.rxlen.toNat (256 - s.rxlen.toNat) (fun k => bs.getD k 0x00#8))

/-- R182, success: N empty polls, a reply of 1 to 256 bytes and the idle gap, with MAX_RETRIES ≥ N + 1: RECV ends
RECEIVED with RETRY_CNT = N and the reply in RXBUF, after N + 2 polls. -/
def Obligations.RetryBoundReceives : Prop :=
  ∀ (s : State) (N : Nat) (bs : List Byte) (rest : List (List Byte)), JustAccepted .recv s → s.rxbuf.wf = true →
    s.env.answers = List.replicate N [] ++ bs :: [] :: rest → bs ≠ [] → bs.length ≤ 256 → N + 1 ≤ s.maxRetries →
    ∃ t, RunsTo (N + 3) s t ∧ t.status.busy = false ∧ t.status.err = false ∧ t.cause = .none ∧
      t.status.state = .received ∧ t.retryCnt.toNat = N ∧ t.rxlen.toNat = bs.length ∧
      (∀ (k : Nat) (h : k < bs.length), t.rxbuf.read k = bs[k]) ∧
      (∀ k, bs.length ≤ k → t.rxbuf.read k = s.rxbuf.read k) ∧
      t.env.polls = s.env.polls + (N + 2) ∧ t.env.sent = s.env.sent

/-- R182, timeout, with R262's lower bound: at least MAX_RETRIES empty polls: RECV raises TIMEOUT with
RETRY_CNT = MAX_RETRIES, RXLEN = 0 and RXBUF unchanged, after exactly MAX_RETRIES polls and not before
MAX_RETRIES × poll_delay ticks. -/
def Obligations.RetryBoundTimesOut : Prop :=
  ∀ (s : State) (N : Nat) (rest : List (List Byte)), JustAccepted .recv s →
    s.env.answers = List.replicate N [] ++ rest → s.maxRetries ≤ N →
    ∃ t, RunsTo (s.maxRetries + 2) s t ∧ t.status.busy = false ∧ t.status.err = true ∧ t.cause = .timeout ∧
      t.status.state = .timeout ∧ t.retryCnt.toNat = s.maxRetries ∧ t.rxlen = 0#9 ∧ t.rxbuf = s.rxbuf ∧
      t.env.polls = s.env.polls + s.maxRetries ∧ s.env.clock + s.maxRetries * pollDelay s ≤ t.env.clock

/-- R183: for every sequence of poll answers a RECV ends within MAX_RETRIES + 258 engine steps, and a QUERY within one
more. -/
def Obligations.ReceiveTerminates : Prop :=
  ∀ s : State,
    (JustAccepted .recv s → ∃ k, k ≤ s.maxRetries + 258 ∧ ∃ t, RunsTo k s t ∧ t.status.busy = false ∧
      t.status.done = true) ∧
    (JustAccepted .query s → ∃ k, k ≤ s.maxRetries + 259 ∧ ∃ t, RunsTo k s t ∧ t.status.busy = false ∧
      t.status.done = true)

/-! ### The parsers -/

/-- R200 and R202: PARSE_LOAD's local checks in their order; the first that fails decides the kind. -/
def Obligations.ParseLoadRejects : Prop :=
  ∀ s : State,
    (256 < s.rxlen.toNat → exec .parseLoad s = .next (raiseFault .range s)) ∧
    (s.rxlen.toNat ≤ 256 → s.rxlen.toNat ≠ 26 → exec .parseLoad s =
      .next (raiseFault .response { s with result := resultOf .frameError true 0x00#8 1#4 })) ∧
    (s.rxlen.toNat = 26 → s.rxbuf.read 0 ≠ 0xAA#8 → exec .parseLoad s =
      .next (raiseFault .response { s with result := resultOf .frameError true 0x00#8 2#4 })) ∧
    (s.rxlen.toNat = 26 → s.rxbuf.read 0 = 0xAA#8 → sumMod256 s.rxbuf 0 25 ≠ (s.rxbuf.read 25).toNat →
      exec .parseLoad s =
        .next (raiseFault .response { s with result := resultOf .checksumError true (s.rxbuf.read 3) 3#4 })) ∧
    (s.rxlen.toNat = 26 → s.rxbuf.read 0 = 0xAA#8 → sumMod256 s.rxbuf 0 25 = (s.rxbuf.read 25).toNat →
      s.rxbuf.read 2 ≠ s.valopc → exec .parseLoad s =
        .next (raiseFault .response { s with result := resultOf .echoMismatch true (s.rxbuf.read 3) 4#4 }))

/-- R203, R204 and R210: a frame with correct framing, checksum and echo is classified by its status byte; 0x80
completes normally, and every other byte ends with RESPONSE and its kind. -/
def Obligations.ParseLoadClassifies : Prop :=
  ∀ s : State, ValidLoadFrame s →
    (s.rxbuf.read 3 = 0x80#8 → exec .parseLoad s =
      .next (complete { s with result := resultOf .success false 0x80#8 0#4 })) ∧
    (∀ (b : Byte) (k : Kind), (b, k) ∈ [(0x90#8, Kind.checksumError), (0xA0#8, .parameterError),
        (0xB0#8, .notExecutable), (0xC0#8, .invalidCommand), (0xD0#8, .unknownCommand)] →
      s.rxbuf.read 3 = b → exec .parseLoad s =
        .next (raiseFault .response { s with result := resultOf k false b 0#4 })) ∧
    (s.rxbuf.read 3 ∉ [0x80#8, 0x90#8, 0xA0#8, 0xB0#8, 0xC0#8, 0xD0#8] → exec .parseLoad s =
      .next (raiseFault .response { s with result := resultOf .unknownError false (s.rxbuf.read 3) 0#4 }))

/-- R207: PARSE_METER's local checks in their order; the first that fails decides DETAIL. -/
def Obligations.ParseMeterRejects : Prop :=
  ∀ s : State,
    (256 < s.rxlen.toNat → exec .parseMeter s = .next (raiseFault .range s)) ∧
    (s.rxlen.toNat < 8 → exec .parseMeter s =
      .next (raiseFault .response { s with result := resultOf .ioError true 0x00#8 1#4 })) ∧
    (8 ≤ s.rxlen.toNat → s.rxlen.toNat ≤ 256 →
      (s.rxbuf.read 0 ≠ 0x7B#8 → exec .parseMeter s =
        .next (raiseFault .response { s with result := resultOf .ioError true 0x00#8 2#4 })) ∧
      (s.rxbuf.read 0 = 0x7B#8 → s.rxbuf.read (s.rxlen.toNat - 1) ≠ 0x7D#8 → exec .parseMeter s =
        .next (raiseFault .response { s with result := resultOf .ioError true 0x00#8 3#4 })) ∧
      (s.rxbuf.read 0 = 0x7B#8 → s.rxbuf.read (s.rxlen.toNat - 1) = 0x7D#8 →
        (s.rxbuf.read 1).toNat * 256 + (s.rxbuf.read 2).toNat ≠ s.rxlen.toNat → exec .parseMeter s =
        .next (raiseFault .response { s with result := resultOf .ioError true 0x00#8 4#4 })) ∧
      (s.rxbuf.read 0 = 0x7B#8 → s.rxbuf.read (s.rxlen.toNat - 1) = 0x7D#8 →
        (s.rxbuf.read 1).toNat * 256 + (s.rxbuf.read 2).toNat = s.rxlen.toNat →
        sumMod256 s.rxbuf 1 (s.rxlen.toNat - 3) ≠ (s.rxbuf.read (s.rxlen.toNat - 2)).toNat → exec .parseMeter s =
        .next (raiseFault .response { s with result := resultOf .ioError true 0x00#8 5#4 }))) ∧
    (ValidMeterFrame s → (s.resOfs < 3 ∨ s.rxlen.toNat < s.resOfs + 4) → exec .parseMeter s =
      .next (raiseFault .response { s with result := resultOf .ioError true 0x00#8 6#4 }))

/-- R207, R208 and R111: a valid meter frame with RES_OFS in its region is classified by its result byte; SUCCESS and
FAIL complete normally, and every other byte ends with RESPONSE. -/
def Obligations.ParseMeterClassifies : Prop :=
  ∀ s : State, ValidMeterFrame s → 3 ≤ s.resOfs → s.resOfs + 4 ≤ s.rxlen.toNat →
    (s.rxbuf.read (s.rxlen.toNat - s.resOfs) = 0x00#8 → exec .parseMeter s =
      .next (complete { s with result := resultOf .success false 0x00#8 0#4 })) ∧
    (s.rxbuf.read (s.rxlen.toNat - s.resOfs) = 0x01#8 → exec .parseMeter s =
      .next (complete { s with result := resultOf .fail false 0x01#8 0#4 })) ∧
    (s.rxbuf.read (s.rxlen.toNat - s.resOfs) ≠ 0x00#8 → s.rxbuf.read (s.rxlen.toNat - s.resOfs) ≠ 0x01#8 →
      exec .parseMeter s = .next (raiseFault .response { s with
        result := resultOf .unknownError false (s.rxbuf.read (s.rxlen.toNat - s.resOfs)) 0#4 }))

/-- R209, load dialect: a valid load frame with exactly one byte changed is FRAME_ERROR when the byte is byte 0 and a
local CHECKSUM_ERROR when it is any of bytes 1 to 25; it is never a success. -/
def Obligations.CorruptedLoadFrameIsRejected : Prop :=
  ∀ (s u : State) (k : Nat), ValidLoadFrame s → k < 26 → u.rxlen = s.rxlen → u.valopc = s.valopc →
    u.rxbuf.read k ≠ s.rxbuf.read k → (∀ j, j ≠ k → u.rxbuf.read j = s.rxbuf.read j) →
    ∃ t, exec .parseLoad u = .next t ∧ t.cause = .response ∧
      (k = 0 → t.result = resultOf .frameError true 0x00#8 2#4) ∧
      (1 ≤ k → t.result = resultOf .checksumError true (u.rxbuf.read 3) 3#4)

/-- R209, meter dialect: a valid meter frame with exactly one byte changed is IO_ERROR, with the DETAIL of the check
that covers the byte; it is never SUCCESS or FAIL. -/
def Obligations.CorruptedMeterFrameIsRejected : Prop :=
  ∀ (s u : State) (k : Nat), ValidMeterFrame s → k < s.rxlen.toNat → u.rxlen = s.rxlen →
    u.rxbuf.read k ≠ s.rxbuf.read k → (∀ j, j ≠ k → u.rxbuf.read j = s.rxbuf.read j) →
    ∃ (t : State) (d : BitVec 4), exec .parseMeter u = .next t ∧ t.cause = .response ∧
      t.result = resultOf .ioError true 0x00#8 d ∧
      (k = 0 → d = 2#4) ∧ (k = s.rxlen.toNat - 1 → d = 3#4) ∧ (k = 1 ∨ k = 2 → d = 4#4) ∧
      (3 ≤ k → k + 2 ≤ s.rxlen.toNat → d = 5#4)
end

