-- ==== Sys2Proof/Laws/Memory.lean ====
section
/-! SUPPORT. The laws of the buffers: a read after a write, the canonical form every operation keeps, equal reads make
equal buffers, byte order, and the checksum function as a finite sum. -/

namespace Sys2Proof.Machine

open Sys2Proof

/-! ### One byte -/

@[simp] theorem Memory.read_nil (i : Nat) : Memory.read [] i = 0#8 := rfl

theorem Memory.wfFrom_cons (lo k : Nat) (v : Byte) (m : Memory) :
    Memory.wfFrom lo ((k, v) :: m) = true ↔ lo ≤ k ∧ k < 256 ∧ v ≠ 0#8 ∧ Memory.wfFrom (k + 1) m = true := by
  simp only [Memory.wfFrom, Bool.and_eq_true, decide_eq_true_eq, bne_iff_ne, and_assoc]
  exact Iff.rfl

theorem Memory.wfFrom_mono {lo lo' : Nat} (h : lo' ≤ lo) : ∀ {m : Memory},
    Memory.wfFrom lo m = true → Memory.wfFrom lo' m = true
  | [], _ => rfl
  | (k, v) :: m, hm => by
    rw [Memory.wfFrom_cons] at hm ⊢
    exact ⟨h.trans hm.1, hm.2⟩

/-- Below its first possible index a canonical list reads as unlisted. -/
theorem Memory.read_of_lt : ∀ {m : Memory} {lo i : Nat}, Memory.wfFrom lo m = true → i < lo → Memory.read m i = 0#8
  | [], _, _, _, _ => rfl
  | (k, v) :: m, lo, i, hm, hi => by
    rw [Memory.wfFrom_cons] at hm
    have hk : k ≠ i := by omega
    simp only [Memory.read, if_neg hk]
    exact Memory.read_of_lt hm.2.2.2 (by omega)

theorem Memory.read_put : ∀ {m : Memory} {lo : Nat} (i j : Nat) (b : Byte), Memory.wfFrom lo m = true →
    Memory.read (Memory.put m i b) j = if j = i then b else Memory.read m j
  | [], lo, i, j, b, _ => by
    have hij : (i = j) = (j = i) := propext eq_comm
    by_cases hb : b = Memory.unlisted
    · subst hb; simp [Memory.put, Memory.unlisted]
    · simp only [Memory.put, if_neg hb, Memory.read, hij]
  | (k, v) :: m, lo, i, j, b, hm => by
    rw [Memory.wfFrom_cons] at hm
    have ih := Memory.read_put (m := m) i j b hm.2.2.2
    unfold Memory.put
    split
    · next hik =>
      have hi : Memory.read m i = 0#8 := Memory.read_of_lt hm.2.2.2 (by omega)
      split
      · next hb =>
        subst hb
        by_cases hj : j = i
        · subst hj
          have : k ≠ j := by omega
          simp [Memory.read, this, hi, Memory.unlisted]
        · simp [hj]
      · by_cases hj : j = i
        · subst hj; simp [Memory.read]
        · have : i ≠ j := fun h => hj h.symm
          simp [Memory.read, this, hj]
    · split
      · next hik =>
        subst hik
        have hi : Memory.read m i = 0#8 := Memory.read_of_lt hm.2.2.2 (by omega)
        split
        · next hb =>
          by_cases hj : j = i
          · subst hj; simp [hi, hb, Memory.unlisted]
          · have : i ≠ j := fun h => hj h.symm
            simp [Memory.read, this, hj]
        · by_cases hj : j = i
          · subst hj; simp [Memory.read]
          · have : i ≠ j := fun h => hj h.symm
            simp [Memory.read, this, hj]
      · next h1 h2 =>
        by_cases hkj : k = j
        · subst hkj
          have : ¬ k = i := fun h => h2 h.symm
          simp [Memory.read, this]
        · simp only [Memory.read, if_neg hkj, ih]

theorem Memory.put_wfFrom : ∀ {m : Memory} {lo : Nat} (i : Nat) (b : Byte), Memory.wfFrom lo m = true → lo ≤ i → i < 256 →
    Memory.wfFrom lo (Memory.put m i b) = true
  | [], lo, i, b, _, h1, h2 => by
    unfold Memory.put
    split
    · rfl
    · next hb => rw [Memory.wfFrom_cons]; exact ⟨h1, h2, hb, rfl⟩
  | (k, v) :: m, lo, i, b, hm, h1, h2 => by
    rw [Memory.wfFrom_cons] at hm
    obtain ⟨hlo, hk, hv, hrest⟩ := hm
    unfold Memory.put
    split
    · split
      · rw [Memory.wfFrom_cons]; exact ⟨hlo, hk, hv, hrest⟩
      · next hik hb =>
        rw [Memory.wfFrom_cons, Memory.wfFrom_cons]
        exact ⟨h1, h2, hb, by omega, hk, hv, hrest⟩
    · split
      · next hik =>
        subst hik
        split
        · exact Memory.wfFrom_mono (by omega) hrest
        · next hb => rw [Memory.wfFrom_cons]; exact ⟨hlo, hk, hb, hrest⟩
      · rw [Memory.wfFrom_cons]
        exact ⟨hlo, hk, hv, Memory.put_wfFrom i b hrest (by omega) h2⟩

/-- The one write keeps the canonical form. -/
theorem Memory.write_wf {m : Memory} (i : Nat) (b : Byte) (h : m.wf = true) : (m.write i b).wf = true := by
  unfold Memory.write
  split
  · next hi => exact Memory.put_wfFrom i b h (Nat.zero_le i) hi
  · exact h

/-- A read after a write: the byte written at its index, and every other index as before. -/
theorem Memory.read_write {m : Memory} (i j : Nat) (b : Byte) (h : m.wf = true) (hi : i < 256) :
    (m.write i b).read j = if j = i then b else m.read j := by
  unfold Memory.write
  rw [if_pos (show i < Config.bufSize from hi)]
  exact Memory.read_put i j b h

/-- Two canonical buffers that read the same are the same data. -/
theorem Memory.ext_of_read : ∀ {m m' : Memory} {lo : Nat}, Memory.wfFrom lo m = true → Memory.wfFrom lo m' = true →
    (∀ i, Memory.read m i = Memory.read m' i) → m = m'
  | [], [], _, _, _, _ => rfl
  | [], (k, v) :: m', lo, _, h', e => by
    rw [Memory.wfFrom_cons] at h'
    have := e k
    simp [Memory.read] at this
    exact absurd this.symm h'.2.2.1
  | (k, v) :: m, [], lo, h, _, e => by
    rw [Memory.wfFrom_cons] at h
    have := e k
    simp [Memory.read] at this
    exact absurd this h.2.2.1
  | (k, v) :: m, (k', v') :: m', lo, h, h', e => by
    rw [Memory.wfFrom_cons] at h h'
    have hkk : k = k' := by
      rcases Nat.lt_trichotomy k k' with hlt | heq | hgt
      · have := e k
        have hne : k' ≠ k := by omega
        rw [show Memory.read ((k', v') :: m') k = Memory.read m' k by simp [Memory.read, hne],
          Memory.read_of_lt h'.2.2.2 (by omega)] at this
        simp [Memory.read] at this
        exact absurd this h.2.2.1
      · exact heq
      · have := e k'
        have hne : k ≠ k' := by omega
        rw [show Memory.read ((k, v) :: m) k' = Memory.read m k' by simp [Memory.read, hne],
          Memory.read_of_lt h.2.2.2 (by omega)] at this
        simp [Memory.read] at this
        exact absurd this.symm h'.2.2.1
    subst hkk
    have hv : v = v' := by have := e k; simpa [Memory.read] using this
    subst hv
    have : m = m' := Memory.ext_of_read h.2.2.2 h'.2.2.2 (fun i => by
      by_cases hi : k = i
      · subst hi
        rw [Memory.read_of_lt h.2.2.2 (by omega), Memory.read_of_lt h'.2.2.2 (by omega)]
      · have := e i
        simpa [Memory.read, hi] using this)
    rw [this]

/-! ### Several bytes -/

/-- Storing a list keeps the canonical form. -/
theorem Memory.writeBytes_wf (bs : List Byte) : ∀ (m : Memory) (a : Nat), m.wf = true → (m.writeBytes a bs).wf = true := by
  induction bs with
  | nil => intro m a h; exact h
  | cons b bs ih => intro m a h; exact ih _ _ (Memory.write_wf a b h)

/-- What a stored list reads as: its bytes in order from `a`, and every other index as before. -/
theorem Memory.read_writeBytes (bs : List Byte) : ∀ (m : Memory) (a j : Nat), m.wf = true → a + bs.length ≤ 256 →
    (m.writeBytes a bs).read j = if a ≤ j then (if h : j - a < bs.length then bs[j - a] else m.read j) else m.read j := by
  induction bs with
  | nil => intro m a j _ _; simp [Memory.writeBytes]
  | cons b bs ih =>
    intro m a j h hlen
    simp only [List.length_cons] at hlen
    rw [Memory.writeBytes, ih _ _ _ (Memory.write_wf a b h) (by omega), Memory.read_write a j b h (by omega)]
    by_cases h1 : a + 1 ≤ j
    · have h2 : a ≤ j := by omega
      have h3 : j ≠ a := by omega
      obtain ⟨d, rfl⟩ : ∃ d, j = a + 1 + d := ⟨j - (a + 1), by omega⟩
      have e1 : a + 1 + d - (a + 1) = d := by omega
      have e2 : a + 1 + d - a = d + 1 := by omega
      simp [h2, e1, e2, h3]
    · by_cases h4 : j = a
      · subst h4; simp
      · have : ¬ a ≤ j := by omega
        simp [h1, this, h4]

@[simp] theorem Memory.readBytes_length (m : Memory) (a n : Nat) : (m.readBytes a n).length = n := by
  induction n generalizing a with
  | zero => rfl
  | succ n ih => simp [Memory.readBytes, ih]

@[simp] theorem Memory.readBytes_getElem (m : Memory) (a n i : Nat) (h : i < (m.readBytes a n).length) :
    (m.readBytes a n)[i] = m.read (a + i) := by
  induction n generalizing a i with
  | zero => simp at h
  | succ n ih =>
    cases i with
    | zero => simp [Memory.readBytes]
    | succ i =>
      simp only [Memory.readBytes, List.getElem_cons_succ]
      rw [ih, show a + 1 + i = a + (i + 1) by omega]

theorem Memory.readBytes_congr {m m' : Memory} {a n : Nat} (h : ∀ i, i < n → m.read (a + i) = m'.read (a + i)) :
    m.readBytes a n = m'.readBytes a n := by
  apply List.ext_getElem <;> simp
  exact h

/-- Reading back a stored list. -/
theorem Memory.readBytes_writeBytes (m : Memory) (a : Nat) (bs : List Byte) (h : m.wf = true) (hlen : a + bs.length ≤ 256) :
    (m.writeBytes a bs).readBytes a bs.length = bs := by
  apply List.ext_getElem
  · simp
  · intro i h1 h2
    simp [Memory.read_writeBytes bs m a (a + i) h hlen, h2]

/-! ### The checksum function -/

/-- `byteSum` is the finite sum of R140. -/
theorem Memory.byteSum_eq_sum (m : Memory) (a n : Nat) :
    m.byteSum a n = ∑ i ∈ Finset.range n, (m.read (a + i)).toNat := by
  induction n generalizing a with
  | zero => rfl
  | succ n ih =>
    rw [Memory.byteSum, ih, Finset.sum_range_succ']
    simp only [Nat.add_zero]
    rw [Nat.add_comm]
    congr 1
    apply Finset.sum_congr rfl
    intro i _
    rw [show a + 1 + i = a + (i + 1) by omega]

theorem Memory.sum8_toNat (m : Memory) (a n : Nat) :
    (m.sum8 a n).toNat = (∑ i ∈ Finset.range n, (m.read (a + i)).toNat) % 256 := by
  rw [Memory.sum8, BitVec.toNat_ofNat, Memory.byteSum_eq_sum]

theorem Memory.sum8_congr {m m' : Memory} {a n : Nat} (h : ∀ i, i < n → m.read (a + i) = m'.read (a + i)) :
    m.sum8 a n = m'.sum8 a n := by
  rw [Memory.sum8, Memory.sum8, Memory.byteSum_eq_sum, Memory.byteSum_eq_sum]
  congr 1
  exact Finset.sum_congr rfl fun i hi => by rw [h i (Finset.mem_range.mp hi)]

/-! ### Byte order -/

@[simp] theorem leBytes_length (v n : Nat) : (leBytes v n).length = n := by
  induction n generalizing v with
  | zero => rfl
  | succ n ih => simp [leBytes, ih]

theorem leBytes_getElem (v n i : Nat) (h : i < (leBytes v n).length) :
    (leBytes v n)[i] = BitVec.ofNat 8 (v / 256 ^ i) := by
  induction n generalizing v i with
  | zero => simp at h
  | succ n ih =>
    cases i with
    | zero => simp [leBytes]
    | succ i =>
      simp only [leBytes, List.getElem_cons_succ]
      rw [ih, Nat.div_div_eq_div_mul, Nat.pow_succ, Nat.mul_comm]

/-- Splitting a number into bytes and joining them gives its residue. -/
theorem leValue_leBytes (v n : Nat) : leValue (leBytes v n) = v % 256 ^ n := by
  induction n generalizing v with
  | zero => simp [leBytes, leValue, Nat.mod_one]
  | succ n ih =>
    have h : (256 : Nat) ^ (n + 1) = 256 * 256 ^ n := by rw [Nat.pow_succ, Nat.mul_comm]
    rw [leBytes, leValue, ih, BitVec.toNat_ofNat, h, Nat.mod_mul]

theorem leValue_lt (bs : List Byte) : leValue bs < 256 ^ bs.length := by
  induction bs with
  | nil => simp [leValue]
  | cons b bs ih =>
    rw [leValue, List.length_cons, Nat.pow_succ]
    have := b.isLt
    omega

theorem leBytes_leValue (bs : List Byte) : leBytes (leValue bs) bs.length = bs := by
  induction bs with
  | nil => rfl
  | cons b bs ih =>
    rw [List.length_cons, leBytes, leValue]
    have hb := b.isLt
    have h1 : (b.toNat + 256 * leValue bs) / 256 = leValue bs := by omega
    rw [h1, ih]
    congr 1
    apply BitVec.eq_of_toNat_eq
    rw [BitVec.toNat_ofNat]
    omega

end Sys2Proof.Machine
end

