-- ==== Sys2Proof/Laws/State.lean ====
section
/-! SUPPORT. What each named update of the state does to each field, one rewriting lemma per field and update, all true
by definition, so that no later proof unfolds a record update. -/

namespace Sys2Proof.Machine

open Sys2Proof

@[simp] theorem raiseFault_irqEn (c : FaultCause) (s : State) :
    (raiseFault c s).irqEn = s.irqEn := rfl
@[simp] theorem raiseFault_status (c : FaultCause) (s : State) :
    (raiseFault c s).status = s.status.faulted := rfl
@[simp] theorem raiseFault_cmd (c : FaultCause) (s : State) :
    (raiseFault c s).cmd = s.cmd := rfl
@[simp] theorem raiseFault_cause (c : FaultCause) (s : State) :
    (raiseFault c s).cause = c := rfl
@[simp] theorem raiseFault_codecCfg (c : FaultCause) (s : State) :
    (raiseFault c s).codecCfg = s.codecCfg := rfl
@[simp] theorem raiseFault_scale (c : FaultCause) (s : State) :
    (raiseFault c s).scale = s.scale := rfl
@[simp] theorem raiseFault_value (c : FaultCause) (s : State) :
    (raiseFault c s).value = s.value := rfl
@[simp] theorem raiseFault_raw (c : FaultCause) (s : State) :
    (raiseFault c s).raw = s.raw := rfl
@[simp] theorem raiseFault_dval (c : FaultCause) (s : State) :
    (raiseFault c s).dval = s.dval := rfl
@[simp] theorem raiseFault_cksCfg (c : FaultCause) (s : State) :
    (raiseFault c s).cksCfg = s.cksCfg := rfl
@[simp] theorem raiseFault_cks (c : FaultCause) (s : State) :
    (raiseFault c s).cks = s.cks := rfl
@[simp] theorem raiseFault_addr (c : FaultCause) (s : State) :
    (raiseFault c s).addr = s.addr := rfl
@[simp] theorem raiseFault_oplen (c : FaultCause) (s : State) :
    (raiseFault c s).oplen = s.oplen := rfl
@[simp] theorem raiseFault_txlen (c : FaultCause) (s : State) :
    (raiseFault c s).txlen = s.txlen := rfl
@[simp] theorem raiseFault_rxlen (c : FaultCause) (s : State) :
    (raiseFault c s).rxlen = s.rxlen := rfl
@[simp] theorem raiseFault_linkCfg (c : FaultCause) (s : State) :
    (raiseFault c s).linkCfg = s.linkCfg := rfl
@[simp] theorem raiseFault_retryCnt (c : FaultCause) (s : State) :
    (raiseFault c s).retryCnt = s.retryCnt := rfl
@[simp] theorem raiseFault_parseCfg (c : FaultCause) (s : State) :
    (raiseFault c s).parseCfg = s.parseCfg := rfl
@[simp] theorem raiseFault_result (c : FaultCause) (s : State) :
    (raiseFault c s).result = s.result := rfl
@[simp] theorem raiseFault_stage (c : FaultCause) (s : State) :
    (raiseFault c s).stage = s.stage := rfl
@[simp] theorem raiseFault_txbuf (c : FaultCause) (s : State) :
    (raiseFault c s).txbuf = s.txbuf := rfl
@[simp] theorem raiseFault_rxbuf (c : FaultCause) (s : State) :
    (raiseFault c s).rxbuf = s.rxbuf := rfl
@[simp] theorem raiseFault_op (c : FaultCause) (s : State) :
    (raiseFault c s).op = s.op := rfl
@[simp] theorem raiseFault_ph (c : FaultCause) (s : State) :
    (raiseFault c s).ph = s.ph := rfl
@[simp] theorem raiseFault_timer (c : FaultCause) (s : State) :
    (raiseFault c s).timer = s.timer := rfl
@[simp] theorem raiseFault_env (c : FaultCause) (s : State) :
    (raiseFault c s).env = s.env := rfl
@[simp] theorem complete_irqEn (s : State) :
    (complete s).irqEn = s.irqEn := rfl
@[simp] theorem complete_status (s : State) :
    (complete s).status = s.status.completed := rfl
@[simp] theorem complete_cmd (s : State) :
    (complete s).cmd = s.cmd := rfl
@[simp] theorem complete_cause (s : State) :
    (complete s).cause = .none := rfl
@[simp] theorem complete_codecCfg (s : State) :
    (complete s).codecCfg = s.codecCfg := rfl
@[simp] theorem complete_scale (s : State) :
    (complete s).scale = s.scale := rfl
@[simp] theorem complete_value (s : State) :
    (complete s).value = s.value := rfl
@[simp] theorem complete_raw (s : State) :
    (complete s).raw = s.raw := rfl
@[simp] theorem complete_dval (s : State) :
    (complete s).dval = s.dval := rfl
@[simp] theorem complete_cksCfg (s : State) :
    (complete s).cksCfg = s.cksCfg := rfl
@[simp] theorem complete_cks (s : State) :
    (complete s).cks = s.cks := rfl
@[simp] theorem complete_addr (s : State) :
    (complete s).addr = s.addr := rfl
@[simp] theorem complete_oplen (s : State) :
    (complete s).oplen = s.oplen := rfl
@[simp] theorem complete_txlen (s : State) :
    (complete s).txlen = s.txlen := rfl
@[simp] theorem complete_rxlen (s : State) :
    (complete s).rxlen = s.rxlen := rfl
@[simp] theorem complete_linkCfg (s : State) :
    (complete s).linkCfg = s.linkCfg := rfl
@[simp] theorem complete_retryCnt (s : State) :
    (complete s).retryCnt = s.retryCnt := rfl
@[simp] theorem complete_parseCfg (s : State) :
    (complete s).parseCfg = s.parseCfg := rfl
@[simp] theorem complete_result (s : State) :
    (complete s).result = s.result := rfl
@[simp] theorem complete_stage (s : State) :
    (complete s).stage = s.stage := rfl
@[simp] theorem complete_txbuf (s : State) :
    (complete s).txbuf = s.txbuf := rfl
@[simp] theorem complete_rxbuf (s : State) :
    (complete s).rxbuf = s.rxbuf := rfl
@[simp] theorem complete_op (s : State) :
    (complete s).op = s.op := rfl
@[simp] theorem complete_ph (s : State) :
    (complete s).ph = s.ph := rfl
@[simp] theorem complete_timer (s : State) :
    (complete s).timer = s.timer := rfl
@[simp] theorem complete_env (s : State) :
    (complete s).env = s.env := rfl
@[simp] theorem accept_irqEn (w : Word) (s : State) :
    (accept w s).irqEn = s.irqEn := rfl
@[simp] theorem accept_status (w : Word) (s : State) :
    (accept w s).status = s.status.accepted := rfl
@[simp] theorem accept_cmd (w : Word) (s : State) :
    (accept w s).cmd = w := rfl
@[simp] theorem accept_cause (w : Word) (s : State) :
    (accept w s).cause = .none := rfl
@[simp] theorem accept_codecCfg (w : Word) (s : State) :
    (accept w s).codecCfg = s.codecCfg := rfl
@[simp] theorem accept_scale (w : Word) (s : State) :
    (accept w s).scale = s.scale := rfl
@[simp] theorem accept_value (w : Word) (s : State) :
    (accept w s).value = s.value := rfl
@[simp] theorem accept_raw (w : Word) (s : State) :
    (accept w s).raw = s.raw := rfl
@[simp] theorem accept_dval (w : Word) (s : State) :
    (accept w s).dval = s.dval := rfl
@[simp] theorem accept_cksCfg (w : Word) (s : State) :
    (accept w s).cksCfg = s.cksCfg := rfl
@[simp] theorem accept_cks (w : Word) (s : State) :
    (accept w s).cks = s.cks := rfl
@[simp] theorem accept_addr (w : Word) (s : State) :
    (accept w s).addr = s.addr := rfl
@[simp] theorem accept_oplen (w : Word) (s : State) :
    (accept w s).oplen = s.oplen := rfl
@[simp] theorem accept_txlen (w : Word) (s : State) :
    (accept w s).txlen = s.txlen := rfl
@[simp] theorem accept_rxlen (w : Word) (s : State) :
    (accept w s).rxlen = s.rxlen := rfl
@[simp] theorem accept_linkCfg (w : Word) (s : State) :
    (accept w s).linkCfg = s.linkCfg := rfl
@[simp] theorem accept_retryCnt (w : Word) (s : State) :
    (accept w s).retryCnt = s.retryCnt := rfl
@[simp] theorem accept_parseCfg (w : Word) (s : State) :
    (accept w s).parseCfg = s.parseCfg := rfl
@[simp] theorem accept_result (w : Word) (s : State) :
    (accept w s).result = s.result := rfl
@[simp] theorem accept_stage (w : Word) (s : State) :
    (accept w s).stage = s.stage := rfl
@[simp] theorem accept_txbuf (w : Word) (s : State) :
    (accept w s).txbuf = s.txbuf := rfl
@[simp] theorem accept_rxbuf (w : Word) (s : State) :
    (accept w s).rxbuf = s.rxbuf := rfl
@[simp] theorem accept_op (w : Word) (s : State) :
    (accept w s).op = w.extractLsb' 0 8 := rfl
@[simp] theorem accept_ph (w : Word) (s : State) :
    (accept w s).ph = .start := rfl
@[simp] theorem accept_timer (w : Word) (s : State) :
    (accept w s).timer = s.timer := rfl
@[simp] theorem accept_env (w : Word) (s : State) :
    (accept w s).env = s.env := rfl
@[simp] theorem refuseCmd_irqEn (s : State) :
    (refuseCmd s).irqEn = s.irqEn := rfl
@[simp] theorem refuseCmd_status (s : State) :
    (refuseCmd s).status = { s.status with busyErr := true } := rfl
@[simp] theorem refuseCmd_cmd (s : State) :
    (refuseCmd s).cmd = s.cmd := rfl
@[simp] theorem refuseCmd_cause (s : State) :
    (refuseCmd s).cause = s.cause := rfl
@[simp] theorem refuseCmd_codecCfg (s : State) :
    (refuseCmd s).codecCfg = s.codecCfg := rfl
@[simp] theorem refuseCmd_scale (s : State) :
    (refuseCmd s).scale = s.scale := rfl
@[simp] theorem refuseCmd_value (s : State) :
    (refuseCmd s).value = s.value := rfl
@[simp] theorem refuseCmd_raw (s : State) :
    (refuseCmd s).raw = s.raw := rfl
@[simp] theorem refuseCmd_dval (s : State) :
    (refuseCmd s).dval = s.dval := rfl
@[simp] theorem refuseCmd_cksCfg (s : State) :
    (refuseCmd s).cksCfg = s.cksCfg := rfl
@[simp] theorem refuseCmd_cks (s : State) :
    (refuseCmd s).cks = s.cks := rfl
@[simp] theorem refuseCmd_addr (s : State) :
    (refuseCmd s).addr = s.addr := rfl
@[simp] theorem refuseCmd_oplen (s : State) :
    (refuseCmd s).oplen = s.oplen := rfl
@[simp] theorem refuseCmd_txlen (s : State) :
    (refuseCmd s).txlen = s.txlen := rfl
@[simp] theorem refuseCmd_rxlen (s : State) :
    (refuseCmd s).rxlen = s.rxlen := rfl
@[simp] theorem refuseCmd_linkCfg (s : State) :
    (refuseCmd s).linkCfg = s.linkCfg := rfl
@[simp] theorem refuseCmd_retryCnt (s : State) :
    (refuseCmd s).retryCnt = s.retryCnt := rfl
@[simp] theorem refuseCmd_parseCfg (s : State) :
    (refuseCmd s).parseCfg = s.parseCfg := rfl
@[simp] theorem refuseCmd_result (s : State) :
    (refuseCmd s).result = s.result := rfl
@[simp] theorem refuseCmd_stage (s : State) :
    (refuseCmd s).stage = s.stage := rfl
@[simp] theorem refuseCmd_txbuf (s : State) :
    (refuseCmd s).txbuf = s.txbuf := rfl
@[simp] theorem refuseCmd_rxbuf (s : State) :
    (refuseCmd s).rxbuf = s.rxbuf := rfl
@[simp] theorem refuseCmd_op (s : State) :
    (refuseCmd s).op = s.op := rfl
@[simp] theorem refuseCmd_ph (s : State) :
    (refuseCmd s).ph = s.ph := rfl
@[simp] theorem refuseCmd_timer (s : State) :
    (refuseCmd s).timer = s.timer := rfl
@[simp] theorem refuseCmd_env (s : State) :
    (refuseCmd s).env = s.env := rfl
@[simp] theorem dropWrite_irqEn (s : State) :
    (dropWrite s).irqEn = s.irqEn := rfl
@[simp] theorem dropWrite_status (s : State) :
    (dropWrite s).status = { s.status with werr := true } := rfl
@[simp] theorem dropWrite_cmd (s : State) :
    (dropWrite s).cmd = s.cmd := rfl
@[simp] theorem dropWrite_cause (s : State) :
    (dropWrite s).cause = s.cause := rfl
@[simp] theorem dropWrite_codecCfg (s : State) :
    (dropWrite s).codecCfg = s.codecCfg := rfl
@[simp] theorem dropWrite_scale (s : State) :
    (dropWrite s).scale = s.scale := rfl
@[simp] theorem dropWrite_value (s : State) :
    (dropWrite s).value = s.value := rfl
@[simp] theorem dropWrite_raw (s : State) :
    (dropWrite s).raw = s.raw := rfl
@[simp] theorem dropWrite_dval (s : State) :
    (dropWrite s).dval = s.dval := rfl
@[simp] theorem dropWrite_cksCfg (s : State) :
    (dropWrite s).cksCfg = s.cksCfg := rfl
@[simp] theorem dropWrite_cks (s : State) :
    (dropWrite s).cks = s.cks := rfl
@[simp] theorem dropWrite_addr (s : State) :
    (dropWrite s).addr = s.addr := rfl
@[simp] theorem dropWrite_oplen (s : State) :
    (dropWrite s).oplen = s.oplen := rfl
@[simp] theorem dropWrite_txlen (s : State) :
    (dropWrite s).txlen = s.txlen := rfl
@[simp] theorem dropWrite_rxlen (s : State) :
    (dropWrite s).rxlen = s.rxlen := rfl
@[simp] theorem dropWrite_linkCfg (s : State) :
    (dropWrite s).linkCfg = s.linkCfg := rfl
@[simp] theorem dropWrite_retryCnt (s : State) :
    (dropWrite s).retryCnt = s.retryCnt := rfl
@[simp] theorem dropWrite_parseCfg (s : State) :
    (dropWrite s).parseCfg = s.parseCfg := rfl
@[simp] theorem dropWrite_result (s : State) :
    (dropWrite s).result = s.result := rfl
@[simp] theorem dropWrite_stage (s : State) :
    (dropWrite s).stage = s.stage := rfl
@[simp] theorem dropWrite_txbuf (s : State) :
    (dropWrite s).txbuf = s.txbuf := rfl
@[simp] theorem dropWrite_rxbuf (s : State) :
    (dropWrite s).rxbuf = s.rxbuf := rfl
@[simp] theorem dropWrite_op (s : State) :
    (dropWrite s).op = s.op := rfl
@[simp] theorem dropWrite_ph (s : State) :
    (dropWrite s).ph = s.ph := rfl
@[simp] theorem dropWrite_timer (s : State) :
    (dropWrite s).timer = s.timer := rfl
@[simp] theorem dropWrite_env (s : State) :
    (dropWrite s).env = s.env := rfl
@[simp] theorem setLink_irqEn (st : LinkState) (s : State) :
    (setLink st s).irqEn = s.irqEn := rfl
@[simp] theorem setLink_status (st : LinkState) (s : State) :
    (setLink st s).status = { s.status with state := st } := rfl
@[simp] theorem setLink_cmd (st : LinkState) (s : State) :
    (setLink st s).cmd = s.cmd := rfl
@[simp] theorem setLink_cause (st : LinkState) (s : State) :
    (setLink st s).cause = s.cause := rfl
@[simp] theorem setLink_codecCfg (st : LinkState) (s : State) :
    (setLink st s).codecCfg = s.codecCfg := rfl
@[simp] theorem setLink_scale (st : LinkState) (s : State) :
    (setLink st s).scale = s.scale := rfl
@[simp] theorem setLink_value (st : LinkState) (s : State) :
    (setLink st s).value = s.value := rfl
@[simp] theorem setLink_raw (st : LinkState) (s : State) :
    (setLink st s).raw = s.raw := rfl
@[simp] theorem setLink_dval (st : LinkState) (s : State) :
    (setLink st s).dval = s.dval := rfl
@[simp] theorem setLink_cksCfg (st : LinkState) (s : State) :
    (setLink st s).cksCfg = s.cksCfg := rfl
@[simp] theorem setLink_cks (st : LinkState) (s : State) :
    (setLink st s).cks = s.cks := rfl
@[simp] theorem setLink_addr (st : LinkState) (s : State) :
    (setLink st s).addr = s.addr := rfl
@[simp] theorem setLink_oplen (st : LinkState) (s : State) :
    (setLink st s).oplen = s.oplen := rfl
@[simp] theorem setLink_txlen (st : LinkState) (s : State) :
    (setLink st s).txlen = s.txlen := rfl
@[simp] theorem setLink_rxlen (st : LinkState) (s : State) :
    (setLink st s).rxlen = s.rxlen := rfl
@[simp] theorem setLink_linkCfg (st : LinkState) (s : State) :
    (setLink st s).linkCfg = s.linkCfg := rfl
@[simp] theorem setLink_retryCnt (st : LinkState) (s : State) :
    (setLink st s).retryCnt = s.retryCnt := rfl
@[simp] theorem setLink_parseCfg (st : LinkState) (s : State) :
    (setLink st s).parseCfg = s.parseCfg := rfl
@[simp] theorem setLink_result (st : LinkState) (s : State) :
    (setLink st s).result = s.result := rfl
@[simp] theorem setLink_stage (st : LinkState) (s : State) :
    (setLink st s).stage = s.stage := rfl
@[simp] theorem setLink_txbuf (st : LinkState) (s : State) :
    (setLink st s).txbuf = s.txbuf := rfl
@[simp] theorem setLink_rxbuf (st : LinkState) (s : State) :
    (setLink st s).rxbuf = s.rxbuf := rfl
@[simp] theorem setLink_op (st : LinkState) (s : State) :
    (setLink st s).op = s.op := rfl
@[simp] theorem setLink_ph (st : LinkState) (s : State) :
    (setLink st s).ph = s.ph := rfl
@[simp] theorem setLink_timer (st : LinkState) (s : State) :
    (setLink st s).timer = s.timer := rfl
@[simp] theorem setLink_env (st : LinkState) (s : State) :
    (setLink st s).env = s.env := rfl
@[simp] theorem setResult_irqEn (k : Kind) (l : Bool) (b : Byte) (d : BitVec 4) (s : State) :
    (setResult k l b d s).irqEn = s.irqEn := rfl
@[simp] theorem setResult_status (k : Kind) (l : Bool) (b : Byte) (d : BitVec 4) (s : State) :
    (setResult k l b d s).status = s.status := rfl
@[simp] theorem setResult_cmd (k : Kind) (l : Bool) (b : Byte) (d : BitVec 4) (s : State) :
    (setResult k l b d s).cmd = s.cmd := rfl
@[simp] theorem setResult_cause (k : Kind) (l : Bool) (b : Byte) (d : BitVec 4) (s : State) :
    (setResult k l b d s).cause = s.cause := rfl
@[simp] theorem setResult_codecCfg (k : Kind) (l : Bool) (b : Byte) (d : BitVec 4) (s : State) :
    (setResult k l b d s).codecCfg = s.codecCfg := rfl
@[simp] theorem setResult_scale (k : Kind) (l : Bool) (b : Byte) (d : BitVec 4) (s : State) :
    (setResult k l b d s).scale = s.scale := rfl
@[simp] theorem setResult_value (k : Kind) (l : Bool) (b : Byte) (d : BitVec 4) (s : State) :
    (setResult k l b d s).value = s.value := rfl
@[simp] theorem setResult_raw (k : Kind) (l : Bool) (b : Byte) (d : BitVec 4) (s : State) :
    (setResult k l b d s).raw = s.raw := rfl
@[simp] theorem setResult_dval (k : Kind) (l : Bool) (b : Byte) (d : BitVec 4) (s : State) :
    (setResult k l b d s).dval = s.dval := rfl
@[simp] theorem setResult_cksCfg (k : Kind) (l : Bool) (b : Byte) (d : BitVec 4) (s : State) :
    (setResult k l b d s).cksCfg = s.cksCfg := rfl
@[simp] theorem setResult_cks (k : Kind) (l : Bool) (b : Byte) (d : BitVec 4) (s : State) :
    (setResult k l b d s).cks = s.cks := rfl
@[simp] theorem setResult_addr (k : Kind) (l : Bool) (b : Byte) (d : BitVec 4) (s : State) :
    (setResult k l b d s).addr = s.addr := rfl
@[simp] theorem setResult_oplen (k : Kind) (l : Bool) (b : Byte) (d : BitVec 4) (s : State) :
    (setResult k l b d s).oplen = s.oplen := rfl
@[simp] theorem setResult_txlen (k : Kind) (l : Bool) (b : Byte) (d : BitVec 4) (s : State) :
    (setResult k l b d s).txlen = s.txlen := rfl
@[simp] theorem setResult_rxlen (k : Kind) (l : Bool) (b : Byte) (d : BitVec 4) (s : State) :
    (setResult k l b d s).rxlen = s.rxlen := rfl
@[simp] theorem setResult_linkCfg (k : Kind) (l : Bool) (b : Byte) (d : BitVec 4) (s : State) :
    (setResult k l b d s).linkCfg = s.linkCfg := rfl
@[simp] theorem setResult_retryCnt (k : Kind) (l : Bool) (b : Byte) (d : BitVec 4) (s : State) :
    (setResult k l b d s).retryCnt = s.retryCnt := rfl
@[simp] theorem setResult_parseCfg (k : Kind) (l : Bool) (b : Byte) (d : BitVec 4) (s : State) :
    (setResult k l b d s).parseCfg = s.parseCfg := rfl
@[simp] theorem setResult_result (k : Kind) (l : Bool) (b : Byte) (d : BitVec 4) (s : State) :
    (setResult k l b d s).result = { kind := k, isLocal := l, code := b, detail := d } := rfl
@[simp] theorem setResult_stage (k : Kind) (l : Bool) (b : Byte) (d : BitVec 4) (s : State) :
    (setResult k l b d s).stage = s.stage := rfl
@[simp] theorem setResult_txbuf (k : Kind) (l : Bool) (b : Byte) (d : BitVec 4) (s : State) :
    (setResult k l b d s).txbuf = s.txbuf := rfl
@[simp] theorem setResult_rxbuf (k : Kind) (l : Bool) (b : Byte) (d : BitVec 4) (s : State) :
    (setResult k l b d s).rxbuf = s.rxbuf := rfl
@[simp] theorem setResult_op (k : Kind) (l : Bool) (b : Byte) (d : BitVec 4) (s : State) :
    (setResult k l b d s).op = s.op := rfl
@[simp] theorem setResult_ph (k : Kind) (l : Bool) (b : Byte) (d : BitVec 4) (s : State) :
    (setResult k l b d s).ph = s.ph := rfl
@[simp] theorem setResult_timer (k : Kind) (l : Bool) (b : Byte) (d : BitVec 4) (s : State) :
    (setResult k l b d s).timer = s.timer := rfl
@[simp] theorem setResult_env (k : Kind) (l : Bool) (b : Byte) (d : BitVec 4) (s : State) :
    (setResult k l b d s).env = s.env := rfl
@[simp] theorem linkSend_irqEn (bs : List Byte) (s : State) :
    (linkSend bs s).irqEn = s.irqEn := rfl
@[simp] theorem linkSend_status (bs : List Byte) (s : State) :
    (linkSend bs s).status = s.status := rfl
@[simp] theorem linkSend_cmd (bs : List Byte) (s : State) :
    (linkSend bs s).cmd = s.cmd := rfl
@[simp] theorem linkSend_cause (bs : List Byte) (s : State) :
    (linkSend bs s).cause = s.cause := rfl
@[simp] theorem linkSend_codecCfg (bs : List Byte) (s : State) :
    (linkSend bs s).codecCfg = s.codecCfg := rfl
@[simp] theorem linkSend_scale (bs : List Byte) (s : State) :
    (linkSend bs s).scale = s.scale := rfl
@[simp] theorem linkSend_value (bs : List Byte) (s : State) :
    (linkSend bs s).value = s.value := rfl
@[simp] theorem linkSend_raw (bs : List Byte) (s : State) :
    (linkSend bs s).raw = s.raw := rfl
@[simp] theorem linkSend_dval (bs : List Byte) (s : State) :
    (linkSend bs s).dval = s.dval := rfl
@[simp] theorem linkSend_cksCfg (bs : List Byte) (s : State) :
    (linkSend bs s).cksCfg = s.cksCfg := rfl
@[simp] theorem linkSend_cks (bs : List Byte) (s : State) :
    (linkSend bs s).cks = s.cks := rfl
@[simp] theorem linkSend_addr (bs : List Byte) (s : State) :
    (linkSend bs s).addr = s.addr := rfl
@[simp] theorem linkSend_oplen (bs : List Byte) (s : State) :
    (linkSend bs s).oplen = s.oplen := rfl
@[simp] theorem linkSend_txlen (bs : List Byte) (s : State) :
    (linkSend bs s).txlen = s.txlen := rfl
@[simp] theorem linkSend_rxlen (bs : List Byte) (s : State) :
    (linkSend bs s).rxlen = s.rxlen := rfl
@[simp] theorem linkSend_linkCfg (bs : List Byte) (s : State) :
    (linkSend bs s).linkCfg = s.linkCfg := rfl
@[simp] theorem linkSend_retryCnt (bs : List Byte) (s : State) :
    (linkSend bs s).retryCnt = s.retryCnt := rfl
@[simp] theorem linkSend_parseCfg (bs : List Byte) (s : State) :
    (linkSend bs s).parseCfg = s.parseCfg := rfl
@[simp] theorem linkSend_result (bs : List Byte) (s : State) :
    (linkSend bs s).result = s.result := rfl
@[simp] theorem linkSend_stage (bs : List Byte) (s : State) :
    (linkSend bs s).stage = s.stage := rfl
@[simp] theorem linkSend_txbuf (bs : List Byte) (s : State) :
    (linkSend bs s).txbuf = s.txbuf := rfl
@[simp] theorem linkSend_rxbuf (bs : List Byte) (s : State) :
    (linkSend bs s).rxbuf = s.rxbuf := rfl
@[simp] theorem linkSend_op (bs : List Byte) (s : State) :
    (linkSend bs s).op = s.op := rfl
@[simp] theorem linkSend_ph (bs : List Byte) (s : State) :
    (linkSend bs s).ph = s.ph := rfl
@[simp] theorem linkSend_timer (bs : List Byte) (s : State) :
    (linkSend bs s).timer = s.timer := rfl
@[simp] theorem linkSend_env (bs : List Byte) (s : State) :
    (linkSend bs s).env = { s.env with sent := s.env.sent ++ [bs] } := rfl
@[simp] theorem awaitPoll_irqEn (s : State) :
    (awaitPoll s).irqEn = s.irqEn := rfl
@[simp] theorem awaitPoll_status (s : State) :
    (awaitPoll s).status = s.status := rfl
@[simp] theorem awaitPoll_cmd (s : State) :
    (awaitPoll s).cmd = s.cmd := rfl
@[simp] theorem awaitPoll_cause (s : State) :
    (awaitPoll s).cause = s.cause := rfl
@[simp] theorem awaitPoll_codecCfg (s : State) :
    (awaitPoll s).codecCfg = s.codecCfg := rfl
@[simp] theorem awaitPoll_scale (s : State) :
    (awaitPoll s).scale = s.scale := rfl
@[simp] theorem awaitPoll_value (s : State) :
    (awaitPoll s).value = s.value := rfl
@[simp] theorem awaitPoll_raw (s : State) :
    (awaitPoll s).raw = s.raw := rfl
@[simp] theorem awaitPoll_dval (s : State) :
    (awaitPoll s).dval = s.dval := rfl
@[simp] theorem awaitPoll_cksCfg (s : State) :
    (awaitPoll s).cksCfg = s.cksCfg := rfl
@[simp] theorem awaitPoll_cks (s : State) :
    (awaitPoll s).cks = s.cks := rfl
@[simp] theorem awaitPoll_addr (s : State) :
    (awaitPoll s).addr = s.addr := rfl
@[simp] theorem awaitPoll_oplen (s : State) :
    (awaitPoll s).oplen = s.oplen := rfl
@[simp] theorem awaitPoll_txlen (s : State) :
    (awaitPoll s).txlen = s.txlen := rfl
@[simp] theorem awaitPoll_rxlen (s : State) :
    (awaitPoll s).rxlen = s.rxlen := rfl
@[simp] theorem awaitPoll_linkCfg (s : State) :
    (awaitPoll s).linkCfg = s.linkCfg := rfl
@[simp] theorem awaitPoll_retryCnt (s : State) :
    (awaitPoll s).retryCnt = s.retryCnt := rfl
@[simp] theorem awaitPoll_parseCfg (s : State) :
    (awaitPoll s).parseCfg = s.parseCfg := rfl
@[simp] theorem awaitPoll_result (s : State) :
    (awaitPoll s).result = s.result := rfl
@[simp] theorem awaitPoll_stage (s : State) :
    (awaitPoll s).stage = s.stage := rfl
@[simp] theorem awaitPoll_txbuf (s : State) :
    (awaitPoll s).txbuf = s.txbuf := rfl
@[simp] theorem awaitPoll_rxbuf (s : State) :
    (awaitPoll s).rxbuf = s.rxbuf := rfl
@[simp] theorem awaitPoll_op (s : State) :
    (awaitPoll s).op = s.op := rfl
@[simp] theorem awaitPoll_ph (s : State) :
    (awaitPoll s).ph = s.ph := rfl
@[simp] theorem awaitPoll_timer (s : State) :
    (awaitPoll s).timer = 0 := rfl
@[simp] theorem awaitPoll_env (s : State) :
    (awaitPoll s).env = { s.env with clock := s.env.clock + s.timer } := rfl
@[simp] theorem afterPoll_irqEn (s : State) :
    (afterPoll s).irqEn = s.irqEn := rfl
@[simp] theorem afterPoll_status (s : State) :
    (afterPoll s).status = s.status := rfl
@[simp] theorem afterPoll_cmd (s : State) :
    (afterPoll s).cmd = s.cmd := rfl
@[simp] theorem afterPoll_cause (s : State) :
    (afterPoll s).cause = s.cause := rfl
@[simp] theorem afterPoll_codecCfg (s : State) :
    (afterPoll s).codecCfg = s.codecCfg := rfl
@[simp] theorem afterPoll_scale (s : State) :
    (afterPoll s).scale = s.scale := rfl
@[simp] theorem afterPoll_value (s : State) :
    (afterPoll s).value = s.value := rfl
@[simp] theorem afterPoll_raw (s : State) :
    (afterPoll s).raw = s.raw := rfl
@[simp] theorem afterPoll_dval (s : State) :
    (afterPoll s).dval = s.dval := rfl
@[simp] theorem afterPoll_cksCfg (s : State) :
    (afterPoll s).cksCfg = s.cksCfg := rfl
@[simp] theorem afterPoll_cks (s : State) :
    (afterPoll s).cks = s.cks := rfl
@[simp] theorem afterPoll_addr (s : State) :
    (afterPoll s).addr = s.addr := rfl
@[simp] theorem afterPoll_oplen (s : State) :
    (afterPoll s).oplen = s.oplen := rfl
@[simp] theorem afterPoll_txlen (s : State) :
    (afterPoll s).txlen = s.txlen := rfl
@[simp] theorem afterPoll_rxlen (s : State) :
    (afterPoll s).rxlen = s.rxlen := rfl
@[simp] theorem afterPoll_linkCfg (s : State) :
    (afterPoll s).linkCfg = s.linkCfg := rfl
@[simp] theorem afterPoll_retryCnt (s : State) :
    (afterPoll s).retryCnt = s.retryCnt := rfl
@[simp] theorem afterPoll_parseCfg (s : State) :
    (afterPoll s).parseCfg = s.parseCfg := rfl
@[simp] theorem afterPoll_result (s : State) :
    (afterPoll s).result = s.result := rfl
@[simp] theorem afterPoll_stage (s : State) :
    (afterPoll s).stage = s.stage := rfl
@[simp] theorem afterPoll_txbuf (s : State) :
    (afterPoll s).txbuf = s.txbuf := rfl
@[simp] theorem afterPoll_rxbuf (s : State) :
    (afterPoll s).rxbuf = s.rxbuf := rfl
@[simp] theorem afterPoll_op (s : State) :
    (afterPoll s).op = s.op := rfl
@[simp] theorem afterPoll_ph (s : State) :
    (afterPoll s).ph = s.ph := rfl
@[simp] theorem afterPoll_timer (s : State) :
    (afterPoll s).timer = pollDelay s := rfl
@[simp] theorem afterPoll_env (s : State) :
    (afterPoll s).env = { s.env with answers := s.env.answers.tail, polls := s.env.polls + 1 } := rfl
@[simp] theorem clockTick_irqEn (s : State) :
    (clockTick s).irqEn = s.irqEn := rfl
@[simp] theorem clockTick_status (s : State) :
    (clockTick s).status = s.status := rfl
@[simp] theorem clockTick_cmd (s : State) :
    (clockTick s).cmd = s.cmd := rfl
@[simp] theorem clockTick_cause (s : State) :
    (clockTick s).cause = s.cause := rfl
@[simp] theorem clockTick_codecCfg (s : State) :
    (clockTick s).codecCfg = s.codecCfg := rfl
@[simp] theorem clockTick_scale (s : State) :
    (clockTick s).scale = s.scale := rfl
@[simp] theorem clockTick_value (s : State) :
    (clockTick s).value = s.value := rfl
@[simp] theorem clockTick_raw (s : State) :
    (clockTick s).raw = s.raw := rfl
@[simp] theorem clockTick_dval (s : State) :
    (clockTick s).dval = s.dval := rfl
@[simp] theorem clockTick_cksCfg (s : State) :
    (clockTick s).cksCfg = s.cksCfg := rfl
@[simp] theorem clockTick_cks (s : State) :
    (clockTick s).cks = s.cks := rfl
@[simp] theorem clockTick_addr (s : State) :
    (clockTick s).addr = s.addr := rfl
@[simp] theorem clockTick_oplen (s : State) :
    (clockTick s).oplen = s.oplen := rfl
@[simp] theorem clockTick_txlen (s : State) :
    (clockTick s).txlen = s.txlen := rfl
@[simp] theorem clockTick_rxlen (s : State) :
    (clockTick s).rxlen = s.rxlen := rfl
@[simp] theorem clockTick_linkCfg (s : State) :
    (clockTick s).linkCfg = s.linkCfg := rfl
@[simp] theorem clockTick_retryCnt (s : State) :
    (clockTick s).retryCnt = s.retryCnt := rfl
@[simp] theorem clockTick_parseCfg (s : State) :
    (clockTick s).parseCfg = s.parseCfg := rfl
@[simp] theorem clockTick_result (s : State) :
    (clockTick s).result = s.result := rfl
@[simp] theorem clockTick_stage (s : State) :
    (clockTick s).stage = s.stage := rfl
@[simp] theorem clockTick_txbuf (s : State) :
    (clockTick s).txbuf = s.txbuf := rfl
@[simp] theorem clockTick_rxbuf (s : State) :
    (clockTick s).rxbuf = s.rxbuf := rfl
@[simp] theorem clockTick_op (s : State) :
    (clockTick s).op = s.op := rfl
@[simp] theorem clockTick_ph (s : State) :
    (clockTick s).ph = s.ph := rfl
@[simp] theorem clockTick_timer (s : State) :
    (clockTick s).timer = s.timer - 1 := rfl
@[simp] theorem clockTick_env (s : State) :
    (clockTick s).env = { s.env with clock := s.env.clock + 1 } := rfl
@[simp] theorem respond_irqEn (e : Bool) (d : Word) (s : State) :
    (respond e d s).irqEn = s.irqEn := rfl
@[simp] theorem respond_status (e : Bool) (d : Word) (s : State) :
    (respond e d s).status = s.status := rfl
@[simp] theorem respond_cmd (e : Bool) (d : Word) (s : State) :
    (respond e d s).cmd = s.cmd := rfl
@[simp] theorem respond_cause (e : Bool) (d : Word) (s : State) :
    (respond e d s).cause = s.cause := rfl
@[simp] theorem respond_codecCfg (e : Bool) (d : Word) (s : State) :
    (respond e d s).codecCfg = s.codecCfg := rfl
@[simp] theorem respond_scale (e : Bool) (d : Word) (s : State) :
    (respond e d s).scale = s.scale := rfl
@[simp] theorem respond_value (e : Bool) (d : Word) (s : State) :
    (respond e d s).value = s.value := rfl
@[simp] theorem respond_raw (e : Bool) (d : Word) (s : State) :
    (respond e d s).raw = s.raw := rfl
@[simp] theorem respond_dval (e : Bool) (d : Word) (s : State) :
    (respond e d s).dval = s.dval := rfl
@[simp] theorem respond_cksCfg (e : Bool) (d : Word) (s : State) :
    (respond e d s).cksCfg = s.cksCfg := rfl
@[simp] theorem respond_cks (e : Bool) (d : Word) (s : State) :
    (respond e d s).cks = s.cks := rfl
@[simp] theorem respond_addr (e : Bool) (d : Word) (s : State) :
    (respond e d s).addr = s.addr := rfl
@[simp] theorem respond_oplen (e : Bool) (d : Word) (s : State) :
    (respond e d s).oplen = s.oplen := rfl
@[simp] theorem respond_txlen (e : Bool) (d : Word) (s : State) :
    (respond e d s).txlen = s.txlen := rfl
@[simp] theorem respond_rxlen (e : Bool) (d : Word) (s : State) :
    (respond e d s).rxlen = s.rxlen := rfl
@[simp] theorem respond_linkCfg (e : Bool) (d : Word) (s : State) :
    (respond e d s).linkCfg = s.linkCfg := rfl
@[simp] theorem respond_retryCnt (e : Bool) (d : Word) (s : State) :
    (respond e d s).retryCnt = s.retryCnt := rfl
@[simp] theorem respond_parseCfg (e : Bool) (d : Word) (s : State) :
    (respond e d s).parseCfg = s.parseCfg := rfl
@[simp] theorem respond_result (e : Bool) (d : Word) (s : State) :
    (respond e d s).result = s.result := rfl
@[simp] theorem respond_stage (e : Bool) (d : Word) (s : State) :
    (respond e d s).stage = s.stage := rfl
@[simp] theorem respond_txbuf (e : Bool) (d : Word) (s : State) :
    (respond e d s).txbuf = s.txbuf := rfl
@[simp] theorem respond_rxbuf (e : Bool) (d : Word) (s : State) :
    (respond e d s).rxbuf = s.rxbuf := rfl
@[simp] theorem respond_op (e : Bool) (d : Word) (s : State) :
    (respond e d s).op = s.op := rfl
@[simp] theorem respond_ph (e : Bool) (d : Word) (s : State) :
    (respond e d s).ph = s.ph := rfl
@[simp] theorem respond_timer (e : Bool) (d : Word) (s : State) :
    (respond e d s).timer = s.timer := rfl
@[simp] theorem respond_env (e : Bool) (d : Word) (s : State) :
    (respond e d s).env = { s.env with responses := s.env.responses ++ [{ busError := e, data := d }] } := rfl
@[simp] theorem withAgenda_irqEn (es : List Event) (s : State) :
    (withAgenda es s).irqEn = s.irqEn := rfl
@[simp] theorem withAgenda_status (es : List Event) (s : State) :
    (withAgenda es s).status = s.status := rfl
@[simp] theorem withAgenda_cmd (es : List Event) (s : State) :
    (withAgenda es s).cmd = s.cmd := rfl
@[simp] theorem withAgenda_cause (es : List Event) (s : State) :
    (withAgenda es s).cause = s.cause := rfl
@[simp] theorem withAgenda_codecCfg (es : List Event) (s : State) :
    (withAgenda es s).codecCfg = s.codecCfg := rfl
@[simp] theorem withAgenda_scale (es : List Event) (s : State) :
    (withAgenda es s).scale = s.scale := rfl
@[simp] theorem withAgenda_value (es : List Event) (s : State) :
    (withAgenda es s).value = s.value := rfl
@[simp] theorem withAgenda_raw (es : List Event) (s : State) :
    (withAgenda es s).raw = s.raw := rfl
@[simp] theorem withAgenda_dval (es : List Event) (s : State) :
    (withAgenda es s).dval = s.dval := rfl
@[simp] theorem withAgenda_cksCfg (es : List Event) (s : State) :
    (withAgenda es s).cksCfg = s.cksCfg := rfl
@[simp] theorem withAgenda_cks (es : List Event) (s : State) :
    (withAgenda es s).cks = s.cks := rfl
@[simp] theorem withAgenda_addr (es : List Event) (s : State) :
    (withAgenda es s).addr = s.addr := rfl
@[simp] theorem withAgenda_oplen (es : List Event) (s : State) :
    (withAgenda es s).oplen = s.oplen := rfl
@[simp] theorem withAgenda_txlen (es : List Event) (s : State) :
    (withAgenda es s).txlen = s.txlen := rfl
@[simp] theorem withAgenda_rxlen (es : List Event) (s : State) :
    (withAgenda es s).rxlen = s.rxlen := rfl
@[simp] theorem withAgenda_linkCfg (es : List Event) (s : State) :
    (withAgenda es s).linkCfg = s.linkCfg := rfl
@[simp] theorem withAgenda_retryCnt (es : List Event) (s : State) :
    (withAgenda es s).retryCnt = s.retryCnt := rfl
@[simp] theorem withAgenda_parseCfg (es : List Event) (s : State) :
    (withAgenda es s).parseCfg = s.parseCfg := rfl
@[simp] theorem withAgenda_result (es : List Event) (s : State) :
    (withAgenda es s).result = s.result := rfl
@[simp] theorem withAgenda_stage (es : List Event) (s : State) :
    (withAgenda es s).stage = s.stage := rfl
@[simp] theorem withAgenda_txbuf (es : List Event) (s : State) :
    (withAgenda es s).txbuf = s.txbuf := rfl
@[simp] theorem withAgenda_rxbuf (es : List Event) (s : State) :
    (withAgenda es s).rxbuf = s.rxbuf := rfl
@[simp] theorem withAgenda_op (es : List Event) (s : State) :
    (withAgenda es s).op = s.op := rfl
@[simp] theorem withAgenda_ph (es : List Event) (s : State) :
    (withAgenda es s).ph = s.ph := rfl
@[simp] theorem withAgenda_timer (es : List Event) (s : State) :
    (withAgenda es s).timer = s.timer := rfl
@[simp] theorem withAgenda_env (es : List Event) (s : State) :
    (withAgenda es s).env = { s.env with agenda := es } := rfl
@[simp] theorem status_completed_busy (t : Status) : t.completed.busy = false := rfl
@[simp] theorem status_completed_done (t : Status) : t.completed.done = true := rfl
@[simp] theorem status_completed_err (t : Status) : t.completed.err = false := rfl
@[simp] theorem status_completed_busyErr (t : Status) : t.completed.busyErr = t.busyErr := rfl
@[simp] theorem status_completed_werr (t : Status) : t.completed.werr = t.werr := rfl
@[simp] theorem status_completed_state (t : Status) : t.completed.state = t.state := rfl
@[simp] theorem status_faulted_busy (t : Status) : t.faulted.busy = false := rfl
@[simp] theorem status_faulted_done (t : Status) : t.faulted.done = true := rfl
@[simp] theorem status_faulted_err (t : Status) : t.faulted.err = true := rfl
@[simp] theorem status_faulted_busyErr (t : Status) : t.faulted.busyErr = t.busyErr := rfl
@[simp] theorem status_faulted_werr (t : Status) : t.faulted.werr = t.werr := rfl
@[simp] theorem status_faulted_state (t : Status) : t.faulted.state = t.state := rfl
@[simp] theorem status_accepted_busy (t : Status) : t.accepted.busy = true := rfl
@[simp] theorem status_accepted_done (t : Status) : t.accepted.done = false := rfl
@[simp] theorem status_accepted_err (t : Status) : t.accepted.err = false := rfl
@[simp] theorem status_accepted_busyErr (t : Status) : t.accepted.busyErr = t.busyErr := rfl
@[simp] theorem status_accepted_werr (t : Status) : t.accepted.werr = t.werr := rfl
@[simp] theorem status_accepted_state (t : Status) : t.accepted.state = t.state := rfl
@[simp] theorem writeOneToClear_busy (v : Word) (t : Status) :
    (writeOneToClear v t).busy = t.busy := rfl
@[simp] theorem writeOneToClear_done (v : Word) (t : Status) :
    (writeOneToClear v t).done = (t.done && !v.getLsbD 1) := rfl
@[simp] theorem writeOneToClear_err (v : Word) (t : Status) :
    (writeOneToClear v t).err = (t.err && !v.getLsbD 2) := rfl
@[simp] theorem writeOneToClear_busyErr (v : Word) (t : Status) :
    (writeOneToClear v t).busyErr = (t.busyErr && !v.getLsbD 3) := rfl
@[simp] theorem writeOneToClear_werr (v : Word) (t : Status) :
    (writeOneToClear v t).werr = (t.werr && !v.getLsbD 4) := rfl
@[simp] theorem writeOneToClear_state (v : Word) (t : Status) :
    (writeOneToClear v t).state = t.state := rfl
@[simp] theorem setBuffer_irqEn (s : State) (b : BufId) (m : Memory) :
    (s.setBuffer b m).irqEn = s.irqEn := by cases b <;> rfl
@[simp] theorem setBuffer_status (s : State) (b : BufId) (m : Memory) :
    (s.setBuffer b m).status = s.status := by cases b <;> rfl
@[simp] theorem setBuffer_cmd (s : State) (b : BufId) (m : Memory) :
    (s.setBuffer b m).cmd = s.cmd := by cases b <;> rfl
@[simp] theorem setBuffer_cause (s : State) (b : BufId) (m : Memory) :
    (s.setBuffer b m).cause = s.cause := by cases b <;> rfl
@[simp] theorem setBuffer_codecCfg (s : State) (b : BufId) (m : Memory) :
    (s.setBuffer b m).codecCfg = s.codecCfg := by cases b <;> rfl
@[simp] theorem setBuffer_scale (s : State) (b : BufId) (m : Memory) :
    (s.setBuffer b m).scale = s.scale := by cases b <;> rfl
@[simp] theorem setBuffer_value (s : State) (b : BufId) (m : Memory) :
    (s.setBuffer b m).value = s.value := by cases b <;> rfl
@[simp] theorem setBuffer_raw (s : State) (b : BufId) (m : Memory) :
    (s.setBuffer b m).raw = s.raw := by cases b <;> rfl
@[simp] theorem setBuffer_dval (s : State) (b : BufId) (m : Memory) :
    (s.setBuffer b m).dval = s.dval := by cases b <;> rfl
@[simp] theorem setBuffer_cksCfg (s : State) (b : BufId) (m : Memory) :
    (s.setBuffer b m).cksCfg = s.cksCfg := by cases b <;> rfl
@[simp] theorem setBuffer_cks (s : State) (b : BufId) (m : Memory) :
    (s.setBuffer b m).cks = s.cks := by cases b <;> rfl
@[simp] theorem setBuffer_addr (s : State) (b : BufId) (m : Memory) :
    (s.setBuffer b m).addr = s.addr := by cases b <;> rfl
@[simp] theorem setBuffer_oplen (s : State) (b : BufId) (m : Memory) :
    (s.setBuffer b m).oplen = s.oplen := by cases b <;> rfl
@[simp] theorem setBuffer_txlen (s : State) (b : BufId) (m : Memory) :
    (s.setBuffer b m).txlen = s.txlen := by cases b <;> rfl
@[simp] theorem setBuffer_rxlen (s : State) (b : BufId) (m : Memory) :
    (s.setBuffer b m).rxlen = s.rxlen := by cases b <;> rfl
@[simp] theorem setBuffer_linkCfg (s : State) (b : BufId) (m : Memory) :
    (s.setBuffer b m).linkCfg = s.linkCfg := by cases b <;> rfl
@[simp] theorem setBuffer_retryCnt (s : State) (b : BufId) (m : Memory) :
    (s.setBuffer b m).retryCnt = s.retryCnt := by cases b <;> rfl
@[simp] theorem setBuffer_parseCfg (s : State) (b : BufId) (m : Memory) :
    (s.setBuffer b m).parseCfg = s.parseCfg := by cases b <;> rfl
@[simp] theorem setBuffer_result (s : State) (b : BufId) (m : Memory) :
    (s.setBuffer b m).result = s.result := by cases b <;> rfl
@[simp] theorem setBuffer_op (s : State) (b : BufId) (m : Memory) :
    (s.setBuffer b m).op = s.op := by cases b <;> rfl
@[simp] theorem setBuffer_ph (s : State) (b : BufId) (m : Memory) :
    (s.setBuffer b m).ph = s.ph := by cases b <;> rfl
@[simp] theorem setBuffer_timer (s : State) (b : BufId) (m : Memory) :
    (s.setBuffer b m).timer = s.timer := by cases b <;> rfl
@[simp] theorem setBuffer_env (s : State) (b : BufId) (m : Memory) :
    (s.setBuffer b m).env = s.env := by cases b <;> rfl
@[simp] theorem buffer_setBuffer_self (s : State) (b : BufId) (m : Memory) :
    (s.setBuffer b m).buffer b = m := by cases b <;> rfl
theorem buffer_setBuffer_of_ne (s : State) (b c : BufId) (m : Memory) (h : c ≠ b) :
    (s.setBuffer b m).buffer c = s.buffer c := by cases b <;> cases c <;> first | rfl | exact absurd rfl h
@[simp] theorem resetInput_eq (s : State) : resetInput s = { State.reset with env := s.env } := rfl

end Sys2Proof.Machine
end

