-- ==== Sys2Proof/Laws/Commands.lean ====
section
/-! SUPPORT. One lemma per command and per shared check that says once everything it can do: the cases of its next
state. Later proofs cite these and do not unfold the meanings. -/

namespace Sys2Proof.Machine

open Sys2Proof

/-! ### The codec -/

theorem codecCheck_eq_none_iff (e : Bool) (s : State) :
    codecCheck e s = none ↔
      1 ≤ s.width ∧ s.width ≤ 8 ∧ s.scale ≠ 0#32 ∧ (e = true → s.ovf ≠ 3#2) ∧ s.offset + s.width ≤ 256 := by
  have h8 : Config.maxWidth = 8 := rfl
  have h256 : Config.bufSize = 256 := rfl
  unfold codecCheck
  rw [h8, h256]
  split
  · simp; omega
  · split
    · simp_all
    · split
      · simp_all
      · split
        · simp; omega
        · simp_all; omega

theorem codecCheck_ne_none {e : Bool} {s : State} {c : FaultCause} (h : codecCheck e s = some c) : c ≠ .none := by
  unfold codecCheck at h
  split at h
  · cases h; decide
  · split at h
    · cases h; decide
    · split at h
      · cases h; decide
      · split at h
        · cases h; decide
        · cases h

/-- A field value fits its field (R123). -/
theorem limitField_lt {p : BitVec 64} {w : Nat} {o : BitVec 2} {n : Nat} (h : limitField p w o = some n) :
    n < 2 ^ (8 * w) := by
  have hpos : 0 < 2 ^ (8 * w) := Nat.pow_pos (by decide)
  have hcast : ((2 ^ (8 * w) : Nat) : Int) = 2 ^ (8 * w) := by push_cast; rfl
  unfold limitField at h
  split at h
  · split at h
    · cases h; split <;> omega
    · cases h
  · split at h
    · next h1 => cases h; omega
    · split at h
      · cases h
        have h1 := Int.emod_nonneg (f64Trunc p) (show (2 ^ (8 * w) : Int) ≠ 0 by omega)
        have h2 := Int.emod_lt_of_pos (f64Trunc p) (show (0 : Int) < 2 ^ (8 * w) by omega)
        omega
      · split at h
        · cases h; split <;> omega
        · cases h

/-- Everything ENCODE can do: fault and change nothing else, or store the field and RAW. -/
theorem execEncode_cases {s t : State} (h : execEncode s = .next t) :
    (∃ c, c ≠ .none ∧ t = raiseFault c s) ∨
    (∃ n, codecCheck true s = none ∧ f64IsFinite s.value = true ∧
      limitField (scaledProduct s.value s.scale.toNat) s.width s.ovf = some n ∧
      t = complete { placeField n s with raw := BitVec.ofNat 64 n }) := by
  unfold execEncode at h
  split at h
  · next c hc => cases h; exact .inl ⟨c, codecCheck_ne_none hc, rfl⟩
  · next hc =>
    split at h
    · next hf =>
      split at h
      · next n hn => cases h; exact .inr ⟨n, hc, hf, hn, rfl⟩
      · cases h; exact .inl ⟨.encOverflow, by decide, rfl⟩
    · cases h; exact .inl ⟨.encNotFinite, by decide, rfl⟩

/-- Everything DECODE can do. -/
theorem execDecode_cases {s t : State} (h : execDecode s = .next t) :
    (∃ c, c ≠ .none ∧ t = raiseFault c s) ∨
    (codecCheck false s = none ∧ t = complete { s with
      raw := BitVec.ofNat 64 (decodedField s), dval := rne64 false (decodedField s) s.scale.toNat }) := by
  unfold execDecode at h
  split at h
  · next c hc => cases h; exact .inl ⟨c, codecCheck_ne_none hc, rfl⟩
  · next hc => cases h; exact .inr ⟨hc, rfl⟩

/-! ### The checksum unit and the builders -/

/-- Everything CKSUM can do. -/
theorem execCksum_cases {s t : State} (h : execCksum s = .next t) :
    (∃ c, c ≠ .none ∧ t = raiseFault c s) ∨
    (s.cksBuf ≠ 3#2 ∧ s.cksStart + s.cksLen ≤ 256 ∧
      t = complete { s with cks := (s.buffer s.cksSource).sum8 s.cksStart s.cksLen }) := by
  unfold execCksum at h
  split at h
  · cases h; exact .inl ⟨.cfgBuf, by decide, rfl⟩
  · next h1 =>
    split at h
    · cases h; exact .inl ⟨.range, by decide, rfl⟩
    · next h2 => cases h; exact .inr ⟨h1, Nat.le_of_not_lt h2, rfl⟩

/-- Everything BUILD_LOAD can do. -/
theorem execBuildLoad_cases {s t : State} (h : execBuildLoad s = .next t) :
    (∃ c, c ≠ .none ∧ t = raiseFault c s) ∨
    (1 ≤ s.oplen.toNat ∧ s.oplen.toNat ≤ 23 ∧ loadAddrOk s.addr = true ∧
      t = complete { s with
        txbuf := loadFrame s.addr (s.stage.readBytes 0 s.oplen.toNat) s.txbuf, txlen := 26#9 }) := by
  simp only [execBuildLoad] at h
  split at h
  · cases h; exact .inl ⟨.buildOplen, by decide, rfl⟩
  · split at h
    · cases h; exact .inl ⟨.buildCapacity, by decide, rfl⟩
    · split at h
      · next h3 => cases h; exact .inr ⟨by omega, by omega, h3, rfl⟩
      · cases h; exact .inl ⟨.buildAddr, by decide, rfl⟩

/-- Everything BUILD_METER can do. -/
theorem execBuildMeter_cases {s t : State} (h : execBuildMeter s = .next t) :
    (∃ c, c ≠ .none ∧ t = raiseFault c s) ∨
    (2 ≤ s.oplen.toNat ∧ s.oplen.toNat ≤ 250 ∧ meterAddrOk s.addr = true ∧
      t = complete { s with
        txbuf := meterFrame (s.oplen.toNat + 6) s.addr (s.stage.readBytes 0 s.oplen.toNat) s.txbuf
        txlen := BitVec.ofNat 9 (s.oplen.toNat + 6) }) := by
  simp only [execBuildMeter] at h
  split at h
  · cases h; exact .inl ⟨.buildOplen, by decide, rfl⟩
  · split at h
    · cases h; exact .inl ⟨.buildCapacity, by decide, rfl⟩
    · split at h
      · next h3 => cases h; exact .inr ⟨by omega, by omega, h3, rfl⟩
      · cases h; exact .inl ⟨.buildAddr, by decide, rfl⟩

theorem loadAddrOk_iff (a : Byte) : loadAddrOk a = true ↔ a.toNat ≤ 31 ∨ a = 0xFF#8 := by
  simp [loadAddrOk]

theorem meterAddrOk_iff (a : Byte) : meterAddrOk a = true ↔ a ≠ 0x00#8 ∧ a ≠ 0xFF#8 := by
  simp [meterAddrOk]

theorem loadBody_length (a : Byte) (bs : List Byte) (h : bs.length ≤ 23) : (loadBody a bs).length = 25 := by
  simp [loadBody]; omega

theorem meterBody_length (len : Nat) (a : Byte) (bs : List Byte) : (meterBody len a bs).length = bs.length + 4 := by
  simp [meterBody]

/-- A built load frame keeps the canonical form. -/
theorem loadFrame_wf (a : Byte) (bs : List Byte) (m : Memory) (h : m.wf = true) : (loadFrame a bs m).wf = true :=
  Memory.write_wf _ _ (Memory.writeBytes_wf _ _ _ h)

/-- A built meter frame keeps the canonical form. -/
theorem meterFrame_wf (len : Nat) (a : Byte) (bs : List Byte) (m : Memory) (h : m.wf = true) :
    (meterFrame len a bs m).wf = true :=
  Memory.write_wf _ _ (Memory.write_wf _ _ (Memory.writeBytes_wf _ _ _ h))

/-! ### The link engine -/

theorem txlenOk_iff (s : State) : txlenOk s = true ↔ 1 ≤ s.txlen.toNat ∧ s.txlen.toNat ≤ 256 := by
  simp only [txlenOk, Bool.and_eq_true, decide_eq_true_eq]
  exact Iff.rfl

/-- Everything SEND can do. -/
theorem execSend_cases {s t : State} (h : execSend s = .next t) :
    (t = raiseFault .range s) ∨ (txlenOk s = true ∧ t = complete (transmit s)) := by
  unfold execSend at h
  split at h
  · next h1 => cases h; exact .inr ⟨h1, rfl⟩
  · cases h; exact .inl rfl

/-- Everything the WAIT step can do: TIMEOUT, a retry, the first bytes of a reply, or an overrun (R177, R179). -/
theorem waitStep_cases {s t : State} (h : waitStep s = .next t) :
    (s.maxRetries ≤ s.retryCnt.toNat ∧ t = raiseFault .timeout (setLink .timeout (awaitPoll s))) ∨
    (s.retryCnt.toNat < s.maxRetries ∧ pollAnswer s.env = [] ∧
      t = { afterPoll (awaitPoll s) with retryCnt := s.retryCnt + 1#16 }) ∨
    (∃ b bs, s.retryCnt.toNat < s.maxRetries ∧ pollAnswer s.env = b :: bs ∧
      ¬ fitCount (b :: bs) s < (b :: bs).length ∧
      t = { setLink .draining (storeReceived (b :: bs) (afterPoll (awaitPoll s))) with ph := .drain }) ∨
    (∃ b bs, s.retryCnt.toNat < s.maxRetries ∧ pollAnswer s.env = b :: bs ∧
      fitCount (b :: bs) s < (b :: bs).length ∧
      t = raiseFault .rxOverrun (setLink .overrun (storeReceived (b :: bs) (afterPoll (awaitPoll s))))) := by
  have hp : pollAnswer (awaitPoll s).env = pollAnswer s.env := rfl
  have hm : (awaitPoll s).maxRetries = s.maxRetries := rfl
  have hr : (awaitPoll s).retryCnt = s.retryCnt := rfl
  have hf : ∀ bs, fitCount bs (afterPoll (awaitPoll s)) = fitCount bs s := fun _ => rfl
  simp only [waitStep, hp, hm, hr] at h
  split at h
  · next h1 => cases h; exact .inl ⟨h1, rfl⟩
  · next h1 =>
    have h1 := Nat.lt_of_not_le h1
    split at h
    · next h2 => cases h; exact .inr (.inl ⟨h1, h2, rfl⟩)
    · next b bs h2 =>
      unfold appendBytes at h
      rw [hf] at h
      by_cases h3 : fitCount (b :: bs) s < (b :: bs).length
      · rw [if_pos h3] at h; cases h; exact .inr (.inr (.inr ⟨b, bs, h1, h2, h3, rfl⟩))
      · rw [if_neg h3] at h; cases h; exact .inr (.inr (.inl ⟨b, bs, h1, h2, h3, rfl⟩))

/-- Everything the DRAIN step can do: the idle gap, more bytes, or an overrun (R178, R179). -/
theorem drainStep_cases {s t : State} (h : drainStep s = .next t) :
    (pollAnswer s.env = [] ∧ t = complete (setLink .received (afterPoll (awaitPoll s)))) ∨
    (∃ b bs, pollAnswer s.env = b :: bs ∧ ¬ fitCount (b :: bs) s < (b :: bs).length ∧
      t = storeReceived (b :: bs) (afterPoll (awaitPoll s))) ∨
    (∃ b bs, pollAnswer s.env = b :: bs ∧ fitCount (b :: bs) s < (b :: bs).length ∧
      t = raiseFault .rxOverrun (setLink .overrun (storeReceived (b :: bs) (afterPoll (awaitPoll s))))) := by
  have hp : pollAnswer (awaitPoll s).env = pollAnswer s.env := rfl
  have hf : ∀ bs, fitCount bs (afterPoll (awaitPoll s)) = fitCount bs s := fun _ => rfl
  simp only [drainStep, hp] at h
  split at h
  · next h2 => cases h; exact .inl ⟨h2, rfl⟩
  · next b bs h2 =>
    unfold appendBytes at h
    rw [hf] at h
    by_cases h3 : fitCount (b :: bs) s < (b :: bs).length
    · rw [if_pos h3] at h; cases h; exact .inr (.inr ⟨b, bs, h2, h3, rfl⟩)
    · rw [if_neg h3] at h; cases h; exact .inr (.inl ⟨b, bs, h2, h3, rfl⟩)

/-- The steps of a receive phase always answer a next state. -/
theorem waitStep_next (s : State) : ∃ t, waitStep s = .next t := by
  simp only [waitStep]
  split
  · exact ⟨_, rfl⟩
  · split
    · exact ⟨_, rfl⟩
    · split <;> exact ⟨_, rfl⟩

theorem drainStep_next (s : State) : ∃ t, drainStep s = .next t := by
  simp only [drainStep]
  split
  · exact ⟨_, rfl⟩
  · split <;> exact ⟨_, rfl⟩

/-- Everything RECV can do, by its phase. -/
theorem execRecv_cases {s t : State} (h : execRecv s = .next t) :
    ((s.ph = .start ∨ s.ph = .recvStart) ∧ t = recvStart s) ∨ (s.ph = .wait ∧ waitStep s = .next t) ∨
    (s.ph = .drain ∧ drainStep s = .next t) := by
  unfold execRecv at h
  split at h
  · next hp => cases h; exact .inl ⟨.inl hp, rfl⟩
  · next hp => cases h; exact .inl ⟨.inr hp, rfl⟩
  · next hp => exact .inr (.inl ⟨hp, h⟩)
  · next hp => exact .inr (.inr ⟨hp, h⟩)

/-- Everything QUERY can do, by its phase. -/
theorem execQuery_cases {s t : State} (h : execQuery s = .next t) :
    (s.ph = .start ∧ t = raiseFault .range s) ∨
    (s.ph = .start ∧ txlenOk s = true ∧ t = { transmit s with ph := .recvStart }) ∨
    (s.ph = .recvStart ∧ t = recvStart s) ∨ (s.ph = .wait ∧ waitStep s = .next t) ∨
    (s.ph = .drain ∧ drainStep s = .next t) := by
  unfold execQuery at h
  split at h
  · next hp =>
    split at h
    · next h1 => cases h; exact .inr (.inl ⟨hp, h1, rfl⟩)
    · cases h; exact .inl ⟨hp, rfl⟩
  · next hp => cases h; exact .inr (.inr (.inl ⟨hp, rfl⟩))
  · next hp => exact .inr (.inr (.inr (.inl ⟨hp, h⟩)))
  · next hp => exact .inr (.inr (.inr (.inr ⟨hp, h⟩)))

/-- Storing received bytes keeps the canonical form of RXBUF. -/
theorem storeReceived_rxbuf_wf (bs : List Byte) (s : State) (h : s.rxbuf.wf = true) :
    (storeReceived bs s).rxbuf.wf = true := Memory.writeBytes_wf _ _ _ h

/-! ### The parsers -/

/-- What a parser can do: RANGE with RESULT unchanged, a rejection, or a normal end; the rejection's and the end's
RESULT has DETAIL at most 6, and LOCAL set exactly when DETAIL is not 0 (R44, R46, R200). -/
def ParseOutcome (s t : State) : Prop :=
  t = raiseFault .range s ∨
  (∃ k l b d, (l = true ↔ d ≠ 0#4) ∧ d.toNat ≤ 6 ∧ t = raiseFault .response (setResult k l b d s)) ∨
  (∃ k b, t = complete (setResult k false b 0#4 s))

theorem rejectResponse_outcome {k : Kind} {l : Bool} {b : Byte} {d : BitVec 4} {s t : State}
    (hl : l = true ↔ d ≠ 0#4) (hd : d.toNat ≤ 6) (h : rejectResponse k l b d s = .next t) : ParseOutcome s t := by
  unfold rejectResponse at h
  cases h
  exact .inr (.inl ⟨k, l, b, d, hl, hd, rfl⟩)

theorem acceptResponse_outcome {k : Kind} {b : Byte} {s t : State} (h : acceptResponse k b s = .next t) :
    ParseOutcome s t := by
  unfold acceptResponse at h
  cases h
  exact .inr (.inr ⟨k, b, rfl⟩)

theorem execParseLoad_cases {s t : State} (h : execParseLoad s = .next t) : ParseOutcome s t := by
  simp only [execParseLoad] at h
  split at h
  · cases h; exact .inl rfl
  · split at h
    · exact rejectResponse_outcome (by decide) (by decide) h
    · split at h
      · exact rejectResponse_outcome (by decide) (by decide) h
      · split at h
        · exact rejectResponse_outcome (by decide) (by decide) h
        · split at h
          · exact rejectResponse_outcome (by decide) (by decide) h
          · split at h
            · exact acceptResponse_outcome h
            · exact rejectResponse_outcome (by decide) (by decide) h

theorem execParseMeter_cases {s t : State} (h : execParseMeter s = .next t) : ParseOutcome s t := by
  simp only [execParseMeter] at h
  split at h
  · cases h; exact .inl rfl
  · split at h
    · exact rejectResponse_outcome (by decide) (by decide) h
    · split at h
      · exact rejectResponse_outcome (by decide) (by decide) h
      · split at h
        · exact rejectResponse_outcome (by decide) (by decide) h
        · split at h
          · exact rejectResponse_outcome (by decide) (by decide) h
          · split at h
            · exact rejectResponse_outcome (by decide) (by decide) h
            · split at h
              · exact rejectResponse_outcome (by decide) (by decide) h
              · split at h
                · exact rejectResponse_outcome (by decide) (by decide) h
                · exact acceptResponse_outcome h

end Sys2Proof.Machine
end

