-- ==== Sys2Proof/Laws/PerInstr.lean ====
section
/-! SUPPORT. The per-instruction family: what the encoding of each command looks like (R100, R101). -/

namespace Sys2Proof.Laws

open Sys2Proof

/-- The one word of a command is a legal command word, and its CODE is the command's. -/
def EncodeWellFormed.Statement (i : Instr) : Prop :=
  i.wf = true ∧ wellFormedWord (encodeWord i) = true ∧ (encodeWord i).extractLsb' 0 8 = codeOf i

theorem EncodeWellFormed.encode : EncodeWellFormed.Statement .encode := ⟨rfl, by decide, by decide⟩

theorem EncodeWellFormed.decode : EncodeWellFormed.Statement .decode := ⟨rfl, by decide, by decide⟩

theorem EncodeWellFormed.cksum : EncodeWellFormed.Statement .cksum := ⟨rfl, by decide, by decide⟩

theorem EncodeWellFormed.buildLoad : EncodeWellFormed.Statement .buildLoad := ⟨rfl, by decide, by decide⟩

theorem EncodeWellFormed.buildMeter : EncodeWellFormed.Statement .buildMeter := ⟨rfl, by decide, by decide⟩

theorem EncodeWellFormed.send : EncodeWellFormed.Statement .send := ⟨rfl, by decide, by decide⟩

theorem EncodeWellFormed.recv : EncodeWellFormed.Statement .recv := ⟨rfl, by decide, by decide⟩

theorem EncodeWellFormed.query : EncodeWellFormed.Statement .query := ⟨rfl, by decide, by decide⟩

theorem EncodeWellFormed.parseLoad : EncodeWellFormed.Statement .parseLoad := ⟨rfl, by decide, by decide⟩

theorem EncodeWellFormed.parseMeter : EncodeWellFormed.Statement .parseMeter := ⟨rfl, by decide, by decide⟩

end Sys2Proof.Laws
end

