-- ==== Sys2Proof/Laws/Step.lean ====
section
/-! SUPPORT. One lemma per agent that says once everything its step can do: the host's access, the engine's step, and
the step of the machine as a choice among them. -/

namespace Sys2Proof.Machine

open Sys2Proof

/-! ### The host -/

/-- A window write lands in one buffer, and only there. -/
theorem memWrite_cases {a : HostAddr} {n : BusSize} {v : Word} {s t : State} (h : memWrite a n v s = some t) :
    (t = s) ∨ (∃ r, busTarget a n = some (.csr r) ∧ t = writeReg r v s) ∨
    (∃ b i, busTarget a n = some (.window b i) ∧
      t = guardBusy s (s.setBuffer b ((s.buffer b).writeBytes i (leBytes v.toNat (busBytes n))))) := by
  unfold memWrite at h
  split at h
  · cases h
  · next r hr => cases h; exact .inr (.inl ⟨r, hr, rfl⟩)
  · cases h; exact .inl rfl
  · next b i hb => cases h; exact .inr (.inr ⟨b, i, hb, rfl⟩)

/-- Everything a host access can do: answer and change nothing, or perform a legal write and answer. -/
theorem hostAccess_cases (acc : Access) (s : State) :
    (∃ e d, hostAccess acc s = respond e d s) ∨
    (∃ a n v u, acc = .write a n v ∧ memWrite a n v s = some u ∧ hostAccess acc s = respond false 0#32 u) := by
  cases acc with
  | read a n =>
    cases h : memRead a n s with
    | none => exact .inl ⟨true, 0#32, by simp [hostAccess, h]⟩
    | some d => exact .inl ⟨false, d, by simp [hostAccess, h]⟩
  | write a n v =>
    cases h : memWrite a n v s with
    | none => exact .inl ⟨true, 0#32, by simp [hostAccess, h]⟩
    | some u => exact .inr ⟨a, n, v, u, rfl, h, by simp [hostAccess, h]⟩

theorem guardBusy_busy {s t : State} (h : s.status.busy = true) : guardBusy s t = dropWrite s := if_pos h

theorem guardBusy_idle {s t : State} (h : s.status.busy = false) : guardBusy s t = t := by
  unfold guardBusy; rw [h]; rfl

/-- A legal CSR access is a 4-byte one at the register's offset, and only there. -/
theorem busTarget_csr {a : HostAddr} {n : BusSize} {r : Reg} (h : busTarget a n = some (.csr r)) :
    n = .word ∧ a = regOffset r := by
  unfold busTarget at h
  split at h
  · cases h
  · split at h
    · split at h
      · next hn =>
        refine ⟨hn, ?_⟩
        cases hr : regAt a with
        | none => rw [hr] at h; cases h
        | some q =>
          rw [hr] at h
          have := List.find?_some hr
          cases h
          exact (by simpa using this : regOffset r = a).symm
      · cases h
    · split at h
      · cases h
      · split at h
        · cases h
        · split at h <;> cases h

/-! ### The engine -/

/-- Everything `exec` can do, one case for each command. -/
theorem exec_next (i : Instr) (s : State) : ∃ t, exec i s = .next t := by
  cases i
  · show ∃ t, execEncode s = .next t
    unfold execEncode; split
    · exact ⟨_, rfl⟩
    · split
      · split <;> exact ⟨_, rfl⟩
      · exact ⟨_, rfl⟩
  · show ∃ t, execDecode s = .next t
    unfold execDecode; split <;> exact ⟨_, rfl⟩
  · show ∃ t, execCksum s = .next t
    unfold execCksum; split
    · exact ⟨_, rfl⟩
    · split <;> exact ⟨_, rfl⟩
  · show ∃ t, execBuildLoad s = .next t
    simp only [execBuildLoad]; split
    · exact ⟨_, rfl⟩
    · split
      · exact ⟨_, rfl⟩
      · split <;> exact ⟨_, rfl⟩
  · show ∃ t, execBuildMeter s = .next t
    simp only [execBuildMeter]; split
    · exact ⟨_, rfl⟩
    · split
      · exact ⟨_, rfl⟩
      · split <;> exact ⟨_, rfl⟩
  · show ∃ t, execSend s = .next t
    unfold execSend; split <;> exact ⟨_, rfl⟩
  · show ∃ t, execRecv s = .next t
    unfold execRecv; split
    · exact ⟨_, rfl⟩
    · exact ⟨_, rfl⟩
    · exact waitStep_next s
    · exact drainStep_next s
  · show ∃ t, execQuery s = .next t
    unfold execQuery; split
    · split <;> exact ⟨_, rfl⟩
    · exact ⟨_, rfl⟩
    · exact waitStep_next s
    · exact drainStep_next s
  · show ∃ t, execParseLoad s = .next t
    simp only [execParseLoad, rejectResponse, acceptResponse]
    split; · exact ⟨_, rfl⟩
    split; · exact ⟨_, rfl⟩
    split; · exact ⟨_, rfl⟩
    split; · exact ⟨_, rfl⟩
    split; · exact ⟨_, rfl⟩
    split <;> exact ⟨_, rfl⟩
  · show ∃ t, execParseMeter s = .next t
    simp only [execParseMeter, rejectResponse, acceptResponse]
    split; · exact ⟨_, rfl⟩
    split; · exact ⟨_, rfl⟩
    split; · exact ⟨_, rfl⟩
    split; · exact ⟨_, rfl⟩
    split; · exact ⟨_, rfl⟩
    split; · exact ⟨_, rfl⟩
    split; · exact ⟨_, rfl⟩
    split <;> exact ⟨_, rfl⟩

/-- Everything the engine's step can do, by the phase (R172). -/
theorem engineStep_cases {s t : State} (h : engineStep s = .next t) :
    (s.ph = .start ∧ ∃ i, decodeWord s.cmd = .ok i ∧ exec i s = .next t) ∨
    (s.ph = .start ∧ (∃ e, decodeWord s.cmd = .error e) ∧ t = raiseFault .illegalCmd s) ∨
    (s.ph = .recvStart ∧ t = recvStart s) ∨ (s.ph = .wait ∧ waitStep s = .next t) ∨
    (s.ph = .drain ∧ drainStep s = .next t) := by
  unfold engineStep at h
  split at h
  · next hp =>
    split at h
    · next i hi => exact .inl ⟨hp, i, hi, h⟩
    · next e he => cases h; exact .inr (.inl ⟨hp, ⟨e, he⟩, rfl⟩)
  · next hp => cases h; exact .inr (.inr (.inl ⟨hp, rfl⟩))
  · next hp => exact .inr (.inr (.inr (.inl ⟨hp, h⟩)))
  · next hp => exact .inr (.inr (.inr (.inr ⟨hp, h⟩)))

/-! ### The machine -/

/-- Taking the event off an empty agenda changes nothing. -/
theorem popAgenda_of_empty {s : State} (h : s.env.agenda = []) : popAgenda s = s := by
  show { s with env := { s.env with agenda := s.env.agenda.tail } } = s
  have : ({ s.env with agenda := s.env.agenda.tail } : Environment) = s.env := by
    rw [h, List.tail_nil, ← h]
  rw [this]

/-- Everything a step can do: the host's access, a tick, a reset, or the engine's turn, each on the state with the
event taken off the agenda. -/
theorem step_cases {s t : State} (h : step s = .next t) :
    (∃ acc, s.env.agenda.head? = some (.host acc) ∧ t = hostAccess acc (popAgenda s)) ∨
    (s.env.agenda.head? = some .tick ∧ t = clockTick (popAgenda s)) ∨
    (s.env.agenda.head? = some .reset ∧ t = resetInput (popAgenda s)) ∨
    (EngineNext s ∧ engineTurn (popAgenda s) = .next t) := by
  unfold step at h
  split at h
  · next hn =>
    right; right; right
    exact ⟨.inl hn, by rw [popAgenda_of_empty hn]; exact h⟩
  · next e es hn =>
    have hpop : withAgenda es s = popAgenda s := by simp [popAgenda, hn]
    rw [hpop] at h
    unfold perform at h
    split at h
    · next acc => cases h; exact .inl ⟨acc, by simp [hn], rfl⟩
    · exact .inr (.inr (.inr ⟨.inr (by simp [hn]), h⟩))
    · cases h; exact .inr (.inl ⟨by simp [hn], rfl⟩)
    · cases h; exact .inr (.inr (.inl ⟨by simp [hn], rfl⟩))

/-- The engine's turn: nothing while idle, its step while BUSY = 1. -/
theorem engineTurn_cases {s t : State} (h : engineTurn s = .next t) :
    (s.status.busy = false ∧ t = s) ∨ (s.status.busy = true ∧ engineStep s = .next t) := by
  unfold engineTurn at h
  split at h
  · next hb => exact .inr ⟨hb, h⟩
  · next hb => cases h; exact .inl ⟨by simpa using hb, rfl⟩

/-! ### Runs -/

@[simp] theorem runsTo_zero (s t : State) : RunsTo 0 s t ↔ s = t := by
  show (Host.Outcome.next s : StepOutcome) = .next t ↔ s = t
  exact ⟨fun h => by cases h; rfl, fun h => by rw [h]⟩

/-- A run of `k + 1` steps is a first step and a run of `k`. -/
theorem runsTo_succ {k : Nat} {s u t : State} (h : step s = .next u) : RunsTo (k + 1) s t ↔ RunsTo k u t := by
  have e : Host.Core.run Sys2Proof.core (k + 1) s = Host.Core.run Sys2Proof.core k u := by
    have h' : Sys2Proof.core.step s = .next u := h
    simp only [Host.Core.run, h']
  unfold RunsTo
  rw [e]

/-- Runs join. -/
theorem runsTo_add {j k : Nat} {s u t : State} (h1 : RunsTo j s u) (h2 : RunsTo k u t) : RunsTo (j + k) s t := by
  induction j generalizing s with
  | zero => rw [runsTo_zero] at h1; subst h1; rwa [Nat.zero_add]
  | succ j ih =>
    cases hs : step s with
    | next v =>
      rw [runsTo_succ hs] at h1
      rw [show j + 1 + k = j + k + 1 by omega, runsTo_succ hs]
      exact ih h1
    | fault r => exact r.casesOn
    | refused r =>
      have e : Host.Core.run Sys2Proof.core (j + 1) s = .refused r := by
        have h' : Sys2Proof.core.step s = .refused r := hs
        simp only [Host.Core.run, h']
      unfold RunsTo at h1
      rw [e] at h1
      cases h1

/-- With nothing scheduled a running command's next step is the engine's. -/
theorem step_of_running {s : State} (ha : s.env.agenda = []) (hb : s.status.busy = true) : step s = engineStep s := by
  unfold step
  rw [ha]
  exact if_pos hb

end Sys2Proof.Machine
end

