-- ==== Sys2Proof/Machine/HostScript.lean ====
section
/-! DEFINITION. The host-script notation of spec/30_encoding.md rules R112 and R113: the host agent's own program. Its
lines are bus accesses and host control flow; the FPE sees only the accesses. -/

namespace Sys2Proof.Machine

open Sys2Proof

/-- A line of a host script (R112), with the pseudo-operations `wait` and `link` of R113. Labels are numbers. -/
inductive ScriptLine where
  /-- `wr8`, `wr16`, `wr32`. -/
  | wr (a : HostAddr) (n : BusSize) (v : Word)
  /-- `rd8`, `rd16`, `rd32`. -/
  | rd (a : HostAddr) (n : BusSize)
  /-- `label:`. -/
  | label (l : Nat)
  /-- `beq REG, m, v, label`. -/
  | beq (r : Reg) (m v : Word) (l : Nat)
  /-- `bne REG, m, v, label`. -/
  | bne (r : Reg) (m v : Word) (l : Nat)
  /-- `wait`: repeat `rd32 STATUS` until BUSY reads 0. -/
  | wait
  /-- `link: [b...]`: the link's answer to a later poll. -/
  | link (bs : List Byte)
  /-- `halt`. -/
  | halt
deriving DecidableEq, Repr

/-- `wr32 REG, v` (R112). -/
def scriptWr32 (r : Reg) (v : Word) : ScriptLine := .wr (regOffset r) .word v

/-- `rd32 REG` (R112). -/
def scriptRd32 (r : Reg) : ScriptLine := .rd (regOffset r) .word

/-- `cmd NAME` (R113). -/
def scriptCmd (i : Instr) : ScriptLine := scriptWr32 .cmd (encodeWord i)

/-- `clr` (R113): clears DONE, ERR, BUSY_ERR and WERR. -/
def scriptClr : ScriptLine := scriptWr32 .status 0x1E#32

/-- `stage i, b0, b1, …` (R113). -/
def scriptStage (i : Nat) : List Byte → List ScriptLine
  | [] => []
  | b :: bs => .wr (BitVec.ofNat 12 (0x100 + i)) .byte (b.setWidth 32) :: scriptStage (i + 1) bs

/-- The line a label names: the line of its `label:`. -/
def scriptTarget (prog : List ScriptLine) (l : Nat) : Nat := prog.findIdx (fun x => x == .label l)

/-- One more poll answer for the link to give. -/
def addAnswer (bs : List Byte) (s : State) : State :=
  { s with env := { s.env with answers := s.env.answers ++ [bs] } }

/-- The host performs the line at `pc`: its access, and the line it goes on with. Past the end and at `halt` it does
nothing. -/
def scriptTurn (prog : List ScriptLine) (pc : Nat) (s : State) : Nat × State :=
  match prog[pc]? with
  | none => (pc, s)
  | some (.wr a n v) => (pc + 1, hostAccess (.write a n v) s)
  | some (.rd a n) => (pc + 1, hostAccess (.read a n) s)
  | some (.label _) => (pc + 1, s)
  | some (.beq r m v l) =>
    (if readReg r s &&& m = v then scriptTarget prog l else pc + 1, hostAccess (.read (regOffset r) .word) s)
  | some (.bne r m v l) =>
    (if readReg r s &&& m = v then pc + 1 else scriptTarget prog l, hostAccess (.read (regOffset r) .word) s)
  | some .wait => (if s.status.busy then pc else pc + 1, hostAccess (.read (regOffset .status) .word) s)
  | some (.link bs) => (pc + 1, addAnswer bs s)
  | some .halt => (pc, s)

/-- A script run under an explicit schedule (R6): `true` is the host's turn, `false` the engine's. -/
def scriptRun (prog : List ScriptLine) : List Bool → Nat × State → Nat × State
  | [], c => c
  | true :: ts, c => scriptRun prog ts (scriptTurn prog c.1 c.2)
  | false :: ts, c =>
    match engineTurn c.2 with
    | .next t => scriptRun prog ts (c.1, t)
    | .fault _ => c
    | .refused _ => c

end Sys2Proof.Machine
end

