-- ==== Sys2Proof/Tests/Slice0.lean ====
section
/-! SUPPORT. The model's own tests: the smoke test of WellFormed, one word of each command written out from
spec/30_encoding.md, single steps with the values of spec/95_test_vectors.md, and for each statement with hypotheses a
concrete case that meets them. -/

namespace Sys2Proof.Tests

open Sys2Proof Sys2Proof.Machine

/-! ### Well-formedness (R100 to R102) -/

theorem test_wf_refuses_reserved_bit_8 : reservedZero 0x00000101#32 = false := by decide
theorem test_wf_refuses_reserved_bit_31 : wellFormedWord 0x80000001#32 = false := by decide
theorem test_wf_refuses_code_zero : codeKnown 0x00000000#32 = false := by decide
theorem test_wf_refuses_code_between : wellFormedWord 0x00000012#32 = false := by decide
theorem test_wf_accepts_query : wellFormedWord 0x00000022#32 = true := by decide

/-! ### Decoding: RSVD (24 bits), then CODE (8 bits), from the table of R101 -/

theorem test_decode_encode : decodeWord 0b000000000000000000000000_00000001#32 = .ok .encode := by decide
theorem test_decode_decode : decodeWord 0b000000000000000000000000_00000010#32 = .ok .decode := by decide
theorem test_decode_cksum : decodeWord 0b000000000000000000000000_00000011#32 = .ok .cksum := by decide
theorem test_decode_build_load : decodeWord 0b000000000000000000000000_00010000#32 = .ok .buildLoad := by decide
theorem test_decode_build_meter : decodeWord 0b000000000000000000000000_00010001#32 = .ok .buildMeter := by decide
theorem test_decode_send : decodeWord 0b000000000000000000000000_00100000#32 = .ok .send := by decide
theorem test_decode_recv : decodeWord 0b000000000000000000000000_00100001#32 = .ok .recv := by decide
theorem test_decode_query : decodeWord 0b000000000000000000000000_00100010#32 = .ok .query := by decide
theorem test_decode_parse_load : decodeWord 0b000000000000000000000000_00110000#32 = .ok .parseLoad := by decide
theorem test_decode_parse_meter : decodeWord 0b000000000000000000000000_00110001#32 = .ok .parseMeter := by decide
theorem test_decode_table_word : decodeTableWord 32 0x31 = some .parseMeter := by decide

/-! ### Helpers -/

/-- A Boolean of the next state. -/
def nextIs (o : StepOutcome) (p : State → Bool) : Bool :=
  match o with
  | .next t => p t
  | .fault _ => false
  | .refused _ => false

/-- The bytes of a buffer that starts with these. -/
def holding (bs : List Byte) : Memory := Memory.writeBytes [] 0 bs

/-- Reset with the codec's operands set. -/
def codecState (v : BitVec 64) (scale : Word) (cfg : BitVec 16) : State :=
  { State.reset with value := v, scale := scale, codecCfg := cfg }

/-- Reset with the builders' operands set. -/
def buildState (addr : Byte) (oplen : BitVec 9) (bs : List Byte) : State :=
  { State.reset with addr := addr, oplen := oplen, stage := holding bs }

/-- Reset with a received frame. -/
def receivedState (bs : List Byte) (parseCfg : BitVec 16) : State :=
  { State.reset with rxbuf := holding bs, rxlen := BitVec.ofNat 9 bs.length, parseCfg := parseCfg }

/-- The load frame of vectors L2.7: status byte `st`, checksum `c`. -/
def loadReply (st c : Byte) : List Byte := [0xAA#8, 0x00#8, 0x12#8, st] ++ List.replicate 21 0x00#8 ++ [c]

/-- The meter frame of vectors L2.8: result byte `r`, checksum `c`. -/
def meterReply (r c : Byte) : List Byte := [0x7B#8, 0x00#8, 0x09#8, 0x01#8, 0x10#8, 0x20#8, r, c, 0x7D#8]

/-- Reset with a command word accepted and the given steps scheduled. -/
def running (w : Word) (es : List Event) : State := withAgenda es (accept w State.reset)

/-- A receive phase: RECV accepted, phase, STATE, MAX_RETRIES, RETRY_CNT and RXLEN as given, and the link's answers. -/
def receiving (p : Phase) (st : LinkState) (retries : BitVec 19) (count : BitVec 16) (len : BitVec 9)
    (answers : List (List Byte)) : State :=
  { setLink st (accept 0x21#32 State.reset) with
    ph := p, linkCfg := retries, retryCnt := count, rxlen := len
    env := { Environment.initial with answers := answers } }

/-- Reset with one host access scheduled. -/
def hostTurn (a : Access) : State := withAgenda [.host a] State.reset

/-! ### One step of each command, with the values of the vectors -/

/-- L2.1 E4: 12.345 at scale 1000, two bytes BIG. -/
theorem test_encode_big_endian :
    nextIs (execEncode (codecState 0x4028B0A3D70A3D71#64 1000#32 0x0012#16))
      (fun t => t.stage.readBytes 0 2 == [0x30#8, 0x39#8] && t.raw == 0x3039#64) = true := by decide +kernel

/-- L2.1 E31: CFG_OVF is checked before RANGE. -/
theorem test_encode_overflow_policy_before_range :
    nextIs (execEncode (codecState 0x3FF0000000000000#64 1#32 0xFF62#16)) (fun t => t.cause == .cfgOvf) = true := by
  decide +kernel

/-- L2.2 D9: the bytes B8 05, LITTLE, at scale 100. -/
theorem test_decode_rounds_the_quotient :
    nextIs (execDecode { codecState 0#64 100#32 0x0002#16 with rxbuf := holding [0xB8#8, 0x05#8] })
      (fun t => t.raw == 0x5B8#64 && t.dval == 0x402D47AE147AE148#64) = true := by decide +kernel

/-- L2.2 D5: 2^64 − 1 rounds up to 2^64. -/
theorem test_decode_rounds_up :
    nextIs (execDecode { codecState 0#64 1#32 0x0008#16 with rxbuf := holding (List.replicate 8 0xFF#8) })
      (fun t => t.dval == 0x43F0000000000000#64) = true := by decide +kernel

/-- L2.3 K1: the checksum of the L1.2 frame. -/
theorem test_cksum_of_txbuf :
    nextIs (execCksum { State.reset with cksCfg := 0x21900#19, txbuf := holding [0xAA#8, 0x00#8, 0x21#8, 0x01#8] })
      (fun t => t.cks == 0xCC#8) = true := by decide +kernel

/-- L2.3 K6: 200 + 57 is out of range. -/
theorem test_cksum_range :
    nextIs (execCksum { State.reset with cksCfg := 0x039C8#19 }) (fun t => t.cause == .range) = true := by decide

/-- L1.2: the frame of opcode 21 and payload 01, address 0. -/
theorem test_build_load_frame :
    nextIs (execBuildLoad (buildState 0x00#8 2#9 [0x21#8, 0x01#8]))
      (fun t => t.txbuf.readBytes 0 26 == [0xAA#8, 0x00#8, 0x21#8, 0x01#8] ++ List.replicate 21 0x00#8 ++ [0xCC#8] &&
        t.txlen == 26#9) = true := by decide +kernel

/-- L2.4 BL8: the length is checked before the address. -/
theorem test_build_load_length_before_address :
    nextIs (execBuildLoad (buildState 32#8 0#9 [])) (fun t => t.cause == .buildOplen) = true := by decide

/-- L2.5 BM2. -/
theorem test_build_meter_frame :
    nextIs (execBuildMeter (buildState 5#8 4#9 [0x00#8, 0x01#8, 0x12#8, 0x34#8]))
      (fun t => t.txbuf.readBytes 0 10 ==
        [0x7B#8, 0x00#8, 0x0A#8, 0x05#8, 0x00#8, 0x01#8, 0x12#8, 0x34#8, 0x56#8, 0x7D#8] && t.txlen == 10#9) = true := by
  decide +kernel

/-- L2.5 BM4: 0xFF is no meter address. -/
theorem test_build_meter_address :
    nextIs (execBuildMeter (buildState 0xFF#8 2#9 [0x10#8, 0x20#8])) (fun t => t.cause == .buildAddr) = true := by decide

/-- L2.6 LK15, with three bytes: TXBUF in index order, STATUS 0x102. -/
theorem test_send_in_index_order :
    nextIs (execSend { accept 0x20#32 State.reset with txbuf := holding [0x01#8, 0x02#8, 0x03#8], txlen := 3#9 })
      (fun t => t.env.sent == [[0x01#8, 0x02#8, 0x03#8]] && statusWord t.status == 0x102#32) = true := by decide

/-- L2.6 LK14: nothing is sent. -/
theorem test_send_nothing :
    nextIs (execSend (accept 0x20#32 State.reset)) (fun t => t.env.sent == [] && t.cause == .range) = true := by decide

/-- L2.6 LK8, from 254 bytes held: two of three bytes fit, and the third is discarded. -/
theorem test_recv_overrun :
    nextIs (execRecv (receiving .drain .draining 1#19 0#16 254#9 [[0x36#8, 0x37#8, 0x38#8]]))
      (fun t => t.cause == .rxOverrun && t.rxlen == 256#9 && t.rxbuf.read 255 == 0x37#8 && t.rxbuf.read 0 == 0#8 &&
        statusWord t.status == 0x606#32) = true := by decide

/-- L2.6 LK2, last step: the budget of 3 is used up. -/
theorem test_recv_timeout :
    nextIs (execRecv (receiving .wait .waiting 3#19 3#16 0#9 []))
      (fun t => statusWord t.status == 0x506#32 && t.cause == .timeout && t.env.polls == 0) = true := by decide

/-- R175, step 1: QUERY transmits and goes on busy. -/
theorem test_query_transmits :
    nextIs (execQuery { accept 0x22#32 State.reset with txbuf := holding [0x01#8, 0x02#8], txlen := 2#9 })
      (fun t => t.env.sent == [[0x01#8, 0x02#8]] && statusWord t.status == 0x101#32 && t.ph == .recvStart) = true := by
  decide

/-- L2.6 LK12: TXLEN 257 is RANGE, STATUS 0x006. -/
theorem test_query_length :
    nextIs (execQuery { accept 0x22#32 State.reset with txlen := 257#9 })
      (fun t => statusWord t.status == 0x006#32 && t.env.sent == []) = true := by decide

/-- L1.3, status 0x90. -/
theorem test_parse_load_device_error :
    nextIs (execParseLoad (receivedState (loadReply 0x90#8 0x4C#8) 0x0312#16))
      (fun t => resultWord t.result == 0x00009001#32 && t.cause == .response) = true := by decide +kernel

/-- L2.7 PL8: a wrong echo in a frame whose checksum is right. -/
theorem test_parse_load_echo :
    nextIs (execParseLoad (receivedState (loadReply 0x80#8 0x3C#8) 0x0313#16))
      (fun t => resultWord t.result == 0x00048019#32) = true := by decide +kernel

/-- L2.8 PM2: FAIL completes normally. -/
theorem test_parse_meter_fail :
    nextIs (execParseMeter (receivedState (meterReply 0x01#8 0x3B#8) 0x0312#16))
      (fun t => resultWord t.result == 0x00000107#32 && statusWord t.status == 0x002#32) = true := by decide

/-- L2.8 PM10: RES_OFS 5 names byte 4. -/
theorem test_parse_meter_offset :
    nextIs (execParseMeter (receivedState (meterReply 0x00#8 0x3A#8) 0x0512#16))
      (fun t => resultWord t.result == 0x00001006#32) = true := by decide

/-! ### The host bus, steps and reset -/

/-- L2.9 M11: a 16-bit read of a window is little-endian. -/
theorem test_window_read_half :
    memRead 0x202#12 .half { State.reset with txbuf := holding [0x11#8, 0x22#8, 0x33#8, 0x44#8] } = some 0x00004433#32 := by
  decide

/-- L2.9 M13: reserved bits of CODEC_CFG read 0. -/
theorem test_codec_cfg_reserved_bits :
    (memWrite 0x014#12 .word 0xFFFFFFFF#32 State.reset).map (readReg .codecCfg) = some 0x0000FFFF#32 := by decide

/-- L2.9 M7: a one-byte access to a CSR is a bus error. -/
theorem test_csr_byte_access : memRead 0x008#12 .byte State.reset = none := by decide

/-- The opcode-table word of BUILD_LOAD runs as the first command: OPLEN is 0 at reset, so BUILD_OPLEN. -/
theorem test_step_runs_the_word :
    nextIs (step (State.reset.withFetchWord 32 0x10)) (fun t => t.cause == .buildOplen && t.cmd == 0x10#32) = true := by
  decide

/-- L2.9 M1: an illegal word faults, and CMD keeps it. -/
theorem test_illegal_word :
    nextIs (step (State.reset.withFetchWord 32 0x101)) (fun t => t.cause == .illegalCmd && t.cmd == 0x101#32) = true := by
  decide

/-- L2.9 M14: asserting `rst` in a running QUERY keeps what was sent. -/
theorem test_reset_keeps_what_was_sent :
    nextIs (step (withAgenda [.reset] (linkSend [0x01#8] (accept 0x22#32 State.reset))))
      (fun t => t == { State.reset with env := { Environment.initial with sent := [[0x01#8]] } }) = true := by decide

/-- The buffers are canonical at reset. -/
theorem test_reset_memory_wf :
    State.reset.stage.wf = true ∧ State.reset.txbuf.wf = true ∧ State.reset.rxbuf.wf = true := by decide

/-- R113: `wait` stays on its line while BUSY reads 1. -/
theorem test_script_wait_stays : (scriptTurn [.wait, .halt] 0 (accept 0x21#32 State.reset)).1 = 0 := by decide

/-- R113: `cmd QUERY` is a write of 0x22 to CMD. -/
theorem test_script_cmd : (scriptTurn [scriptCmd .query] 0 State.reset).2.cmd = 0x22#32 := by decide

/-! ### The hypotheses of each statement are met -/

theorem witness_DecodeIsByCode :
    decodeWord 0x22#32 = .ok .query ∧ IllegalWord 0x00000122#32 ∧ IllegalWord 0x00000032#32 :=
  ⟨by decide, .inl (by decide), .inr (by decide)⟩

theorem witness_DecodeEncodeAgree : Instr.wf .query = true ∧ decodeWord 0x22#32 = .ok .query := by decide

theorem witness_StepRunsTheDecodedCommand :
    (EngineNext (running 0x10#32 []) ∧ (running 0x10#32 []).status.busy = true ∧
      decodeWord (running 0x10#32 []).cmd = .ok .buildLoad ∧ (running 0x10#32 []).ph = .start) ∧
    (EngineNext (withAgenda [.engine] (receiving .wait .waiting 3#19 0#16 0#9 [])) ∧
      (receiving .wait .waiting 3#19 0#16 0#9 []).status.busy = true ∧
      decodeWord (receiving .wait .waiting 3#19 0#16 0#9 []).cmd = .ok .recv) :=
  ⟨⟨.inl rfl, rfl, by decide, rfl⟩, .inr rfl, rfl, by decide⟩

/-- Reset with a write to CMD scheduled, and then an engine step. -/
def cmdTurn (w : Word) : State := withAgenda [.host (.write 0x00C#12 .word w), .engine] State.reset

theorem witness_IllegalWordFaults :
    (cmdTurn 0x101#32).env.agenda = .host (.write 0x00C#12 .word 0x101#32) :: .engine :: [] ∧
    (cmdTurn 0x101#32).status.busy = false ∧ IllegalWord 0x101#32 ∧ IllegalWord 0xFF#32 :=
  ⟨rfl, rfl, .inl (by decide), .inr (by decide)⟩

theorem witness_CommandWriteAcceptedOrRefused :
    (cmdTurn 0x10#32).env.agenda = .host (.write 0x00C#12 .word 0x10#32) :: [.engine] ∧
    (cmdTurn 0x10#32).status.busy = false ∧
    (running 0x21#32 [.host (.write 0x00C#12 .word 0x10#32)]).env.agenda =
      .host (.write 0x00C#12 .word 0x10#32) :: [] ∧
    (running 0x21#32 [.host (.write 0x00C#12 .word 0x10#32)]).status.busy = true := ⟨rfl, rfl, rfl, rfl⟩

theorem witness_LegalAndIllegalAccesses :
    (busTarget 0x0FC#12 .word).isSome = true ∧ (busTarget 0x3FF#12 .byte).isSome = true ∧
    (hostTurn (.write 0x101#12 .half 0xBEEF#32)).env.agenda = .host (.write 0x101#12 .half 0xBEEF#32) :: [] ∧
    (0x101#12).toNat % busBytes .half ≠ 0 ∧
    (hostTurn (.read 0x0FC#12 .half)).env.agenda = .host (.read 0x0FC#12 .half) :: [] ∧
    ((0x0FC#12).toNat < 0x100 ∧ BusSize.half ≠ .word) ∧
    (hostTurn (.read 0x400#12 .byte)).env.agenda = .host (.read 0x400#12 .byte) :: [] ∧ 0x400 ≤ (0x400#12).toNat :=
  ⟨by decide, by decide, rfl, by decide, rfl, by decide, rfl, by decide⟩

theorem witness_ReadsChangeNothing :
    ((hostTurn (.read 0x058#12 .word)).env.agenda = .host (.read 0x058#12 .word) :: [] ∧
      memRead 0x058#12 .word (hostTurn (.read 0x058#12 .word)) = some 0x0000000F#32) ∧
    ((hostTurn (.read 0x3FF#12 .byte)).env.agenda = .host (.read 0x3FF#12 .byte) :: [] ∧
      memRead 0x3FF#12 .byte (hostTurn (.read 0x3FF#12 .byte)) = some 0#32) ∧
    ((hostTurn (.read 0x400#12 .byte)).env.agenda = .host (.read 0x400#12 .byte) :: [] ∧
      memRead 0x400#12 .byte (hostTurn (.read 0x400#12 .byte)) = none) :=
  ⟨⟨rfl, by decide⟩, ⟨rfl, by decide⟩, rfl, by decide⟩

theorem witness_WritesPerformMemWrite :
    ((hostTurn (.write 0x018#12 .word 7#32)).env.agenda = .host (.write 0x018#12 .word 7#32) :: [] ∧
      ∃ u, memWrite 0x018#12 .word 7#32 (hostTurn (.write 0x018#12 .word 7#32)) = some u ∧ u.scale = 7#32) ∧
    ((running 0x21#32 [.host (.write 0x3FF#12 .byte 7#32)]).env.agenda = .host (.write 0x3FF#12 .byte 7#32) :: [] ∧
      ∃ u, memWrite 0x3FF#12 .byte 7#32 (running 0x21#32 [.host (.write 0x3FF#12 .byte 7#32)]) = some u ∧
        u.status.werr = true ∧ u.rxbuf.read 255 = 0#8) :=
  ⟨⟨rfl, _, rfl, by decide⟩, rfl, _, rfl, by decide⟩

theorem witness_ReservedAndReadOnlyIgnoreWrites :
    (0x05C ≤ (0x05C#12).toNat ∧ (0x05C#12).toNat < 0x100 ∧ (0x05C#12).toNat % 4 = 0) ∧
    (0x05C ≤ (0x0FC#12).toNat ∧ (0x0FC#12).toNat < 0x100 ∧ (0x0FC#12).toNat % 4 = 0) ∧
    Reg.result ∈ readOnlyRegs := by decide

theorem witness_OperandWritesStoreImplementedBits :
    ((Reg.linkCfg, 0x0007FFFF#32) ∈ operandRegs ∧ State.reset.status.busy = false) ∧
    (running 0x21#32 []).status.busy = true ∧ Reg.ctrl = .ctrl := by decide

theorem witness_BusyWritesAreDropped :
    (running 0x21#32 []).status.busy = true ∧
    (∃ e ∈ operandRegs, 0x03C#12 = regOffset e.1) ∧
    (0x100 ≤ (0x100#12).toNat ∧ (0x100#12).toNat < 0x400 ∧ (0x100#12).toNat % busBytes .word = 0) ∧
    (0x100 ≤ (0x3FF#12).toNat ∧ (0x3FF#12).toNat < 0x400 ∧ (0x3FF#12).toNat % busBytes .byte = 0) := by decide

theorem witness_WindowReadsLittleEndian :
    ((BufId.stage, 0x100) ∈ [(BufId.stage, 0x100), (BufId.txbuf, 0x200), (BufId.rxbuf, 0x300)] ∧
      0x100 ≤ (0x1FC#12).toNat ∧ (0x1FC#12).toNat < 0x100 + 0x100 ∧ (0x1FC#12).toNat % 4 = 0) ∧
    ((BufId.rxbuf, 0x300) ∈ [(BufId.stage, 0x100), (BufId.txbuf, 0x200), (BufId.rxbuf, 0x300)] ∧
      0x300 ≤ (0x3FE#12).toNat ∧ (0x3FE#12).toNat < 0x300 + 0x100 ∧ (0x3FE#12).toNat % 2 = 0) := by decide

theorem witness_WindowWritesStoreBytes :
    (BufId.txbuf, 0x200) ∈ [(BufId.stage, 0x100), (BufId.txbuf, 0x200), (BufId.rxbuf, 0x300)] ∧
    0x200 ≤ (0x2FC#12).toNat ∧ (0x2FC#12).toNat < 0x200 + 0x100 ∧ (0x2FC#12).toNat % busBytes .word = 0 ∧
    State.reset.status.busy = false ∧ (State.reset.buffer .txbuf).wf = true := by decide

theorem witness_ResetSetsEveryRegister : (running 0x22#32 [.reset]).env.agenda = .reset :: [] := rfl

/-- A freshly accepted command on the reset state satisfies the invariant. -/
theorem running_inv (w : Word) : StateInv (running w []) :=
  { stage_wf := rfl, txbuf_wf := rfl, rxbuf_wf := rfl, op_eq := rfl
    busy_clean := fun _ => ⟨rfl, rfl, rfl⟩
    err_cause := fun h => nomatch h
    phase := fun _ => trivial
    detail_le := Nat.zero_le _
    local_iff := by simp [running, withAgenda, accept, State.reset, Result.reset] }

theorem witness_StepKeepsInvariant : StateInv (running 0x21#32 []) ∧ ∃ t, step (running 0x21#32 []) = .next t :=
  ⟨running_inv _, _, rfl⟩

theorem witness_OperandsFixedWhileBusy :
    (running 0x21#32 []).status.busy = true ∧ NoReset (running 0x21#32 []) ∧
    ∃ t, step (running 0x21#32 []) = .next t ∧ t.status.busy = true :=
  ⟨rfl, nofun, _, rfl, rfl⟩

theorem witness_OnlyParsersWriteResult :
    NoReset (running 0x30#32 []) ∧
    ∃ t, step (running 0x30#32 []) = .next t ∧ t.result ≠ (running 0x30#32 []).result :=
  ⟨nofun, _, rfl, by decide⟩

theorem witness_LinkStateTransitions :
    StateInv (running 0x21#32 []) ∧ NoReset (running 0x21#32 []) ∧
    ∃ t, step (running 0x21#32 []) = .next t ∧ t.status.state ≠ (running 0x21#32 []).status.state :=
  ⟨running_inv _, nofun, _, rfl, by decide⟩

/-- SEND accepted with `n` bytes to transmit. -/
def sending (w : Word) (n : BitVec 9) : State := { accept w State.reset with txlen := n, txbuf := holding [0x01#8] }

theorem witness_OnlySendAndQueryTransmit :
    ∃ t, step (sending 0x20#32 1#9) = .next t ∧ t.env.sent ≠ (sending 0x20#32 1#9).env.sent := ⟨_, rfl, by decide⟩

theorem witness_BusyFallsOnlyAtCommandEnd :
    NoReset (running 0x10#32 []) ∧ (running 0x10#32 []).status.busy = true ∧
    ∃ t, step (running 0x10#32 []) = .next t ∧ t.status.busy = false := ⟨nofun, rfl, _, rfl, by decide⟩

/-- BUSY_ERR and WERR set, and a write of `v` to STATUS scheduled. -/
def stickyTurn (v : Word) : State :=
  dropWrite (refuseCmd (hostTurn (.write 0x008#12 .word v)))

theorem witness_StickyBitsClearedOnlyByHost :
    NoReset (stickyTurn 0x18#32) ∧
    ∃ t, step (stickyTurn 0x18#32) = .next t ∧
      ((stickyTurn 0x18#32).status.busyErr = true ∧ t.status.busyErr = false) ∧
      ((stickyTurn 0x18#32).status.werr = true ∧ t.status.werr = false) := ⟨nofun, _, rfl, by decide⟩

/-- DONE set, IRQ_EN as given, and a write scheduled. -/
def doneTurn (irqEn : Bool) (a : HostAddr) (v : Word) : State :=
  { complete (hostTurn (.write a .word v)) with irqEn := irqEn }

theorem witness_IrqRisesAndFalls :
    (∃ t, NoReset { running 0x10#32 [] with irqEn := true } ∧
      step { running 0x10#32 [] with irqEn := true } = .next t ∧
      State.irq { running 0x10#32 [] with irqEn := true } = false ∧ t.irq = true) ∧
    (∃ t, NoReset (doneTurn false 0x004#12 1#32) ∧ step (doneTurn false 0x004#12 1#32) = .next t ∧
      (doneTurn false 0x004#12 1#32).irq = false ∧ t.irq = true) ∧
    (∃ t, NoReset (doneTurn true 0x008#12 2#32) ∧ step (doneTurn true 0x008#12 2#32) = .next t ∧
      (doneTurn true 0x008#12 2#32).irq = true ∧ t.irq = false) ∧
    (∃ t, NoReset (doneTurn true 0x00C#12 1#32) ∧ step (doneTurn true 0x00C#12 1#32) = .next t ∧
      (doneTurn true 0x00C#12 1#32).irq = true ∧ t.irq = false) ∧
    (∃ t, NoReset (doneTurn true 0x004#12 0#32) ∧ step (doneTurn true 0x004#12 0#32) = .next t ∧
      (doneTurn true 0x004#12 0#32).irq = true ∧ t.irq = false) :=
  ⟨⟨_, nofun, rfl, by decide⟩, ⟨_, nofun, rfl, by decide⟩, ⟨_, nofun, rfl, by decide⟩, ⟨_, nofun, rfl, by decide⟩,
    ⟨_, nofun, rfl, by decide⟩⟩

theorem witness_CommandsTouchOnlyTheirOwnState (i : Instr) : ∃ t, exec i (running 0x22#32 []) = .next t := by
  cases i <;> exact ⟨_, rfl⟩

/-! #### The codec -/

theorem witness_RoundingIsNearestEven :
    0 < 3 ∧ |(1 : ℚ) / 3| < f64Limit ∧ f64Limit ≤ (2 ^ 1024 : ℕ) ∧ (-1 : ℚ) * 2 ^ 1024 ≤ -f64Limit := by
  have h1 : (1 : ℚ) ≤ 2 ^ 970 := one_le_pow₀ (by norm_num)
  have h2 : (2 : ℚ) ^ 1024 = 2 ^ 970 * 2 ^ 54 := by rw [← pow_add]
  have h3 : f64Limit = (2 : ℚ) ^ 1024 - 2 ^ 970 := rfl
  have h4 : (2 : ℚ) ^ 54 = 18014398509481984 := by norm_num
  rw [h3, Nat.cast_pow, Nat.cast_ofNat, h2, h4, abs_of_pos (by norm_num : (0 : ℚ) < 1 / 3)]
  generalize (2 : ℚ) ^ 970 = a at h1
  refine ⟨by decide, ?_, ?_, ?_⟩ <;> linarith

theorem witness_ScaledProductIsRounded :
    f64IsFinite 0x4002666666666666#64 = true ∧
    f64IsFinite (scaledProduct 0x4002666666666666#64 (100#32).toNat) = true := by decide +kernel

/-- 12.345 at scale 1000 in two bytes BIG (L2.1 E4). -/
def encodeE4 : State := codecState 0x4028B0A3D70A3D71#64 1000#32 0x0012#16

theorem encodeE4_ok : CodecConfigOk encodeE4 := by
  unfold CodecConfigOk; decide

theorem witness_EncodeStoresTheField :
    CodecConfigOk encodeE4 ∧ encodeE4.ovf ≠ 3#2 ∧ f64IsFinite encodeE4.value = true ∧ encodeE4.stage.wf = true ∧
    f64IsInf (scaledProduct encodeE4.value encodeE4.scale.toNat) = false ∧
    0 ≤ f64Trunc (scaledProduct encodeE4.value encodeE4.scale.toNat) ∧
    f64Trunc (scaledProduct encodeE4.value encodeE4.scale.toNat) < 2 ^ (8 * encodeE4.width) :=
  ⟨encodeE4_ok, by decide +kernel⟩

/-- 1e308, or its negative, at the largest scale (L2.1 E21 to E25). -/
def encodeInf (neg : Bool) (cfg : BitVec 16) : State :=
  codecState (if neg then 0xFFE1CCF385EBC8A0#64 else 0x7FE1CCF385EBC8A0#64) 0xFFFFFFFF#32 cfg

/-- 256.0, or −1.0, in one byte (L2.1 E7 to E12). -/
def encodeOut (neg : Bool) (cfg : BitVec 16) : State :=
  codecState (if neg then 0xBFF0000000000000#64 else 0x4070000000000000#64) 1#32 cfg

/-- The hypotheses ENCODE's overflow statement shares, under policy `o`. -/
def PolicyCase (s : State) (o : BitVec 2) : Prop :=
  CodecConfigOk s ∧ s.ovf = o ∧ f64IsFinite s.value = true ∧ s.stage.wf = true

theorem witness_EncodeOverflowPolicies_infinite (neg : Bool) :
    PolicyCase (encodeInf neg 0x0008#16) 0#2 ∧ PolicyCase (encodeInf neg 0x0028#16) 1#2 ∧
    PolicyCase (encodeInf neg 0x0048#16) 2#2 ∧
    f64IsInf (scaledProduct (encodeInf neg 0x0048#16).value (encodeInf neg 0x0048#16).scale.toNat) = true ∧
    f64Neg (scaledProduct (encodeInf neg 0x0048#16).value (encodeInf neg 0x0048#16).scale.toNat) = neg := by
  unfold PolicyCase CodecConfigOk
  cases neg <;> decide +kernel

theorem witness_EncodeOverflowPolicies_outside (neg : Bool) :
    PolicyCase (encodeOut neg 0x0001#16) 0#2 ∧ PolicyCase (encodeOut neg 0x0021#16) 1#2 ∧
    PolicyCase (encodeOut neg 0x0041#16) 2#2 ∧
    f64IsInf (scaledProduct (encodeOut neg 0x0041#16).value (encodeOut neg 0x0041#16).scale.toNat) = false ∧
    f64Trunc (scaledProduct (encodeOut neg 0x0041#16).value (encodeOut neg 0x0041#16).scale.toNat) =
      if neg then -1 else 2 ^ (8 * (encodeOut neg 0x0041#16).width) := by
  unfold PolicyCase CodecConfigOk
  cases neg <;> decide +kernel

theorem witness_CodecFaults :
    (codecState 0#64 1#32 0x0000#16).width = 0 ∧ 8 < (codecState 0#64 1#32 0x0009#16).width ∧
    (1 ≤ (codecState 0#64 0#32 0x0008#16).width ∧ (codecState 0#64 0#32 0x0008#16).width ≤ 8) ∧
    (1 ≤ (codecState 0#64 1#32 0xFF62#16).width ∧ (codecState 0#64 1#32 0xFF62#16).width ≤ 8 ∧
      (codecState 0#64 1#32 0xFF62#16).ovf = 3#2) ∧
    (1 ≤ (codecState 0#64 1#32 0xFD04#16).width ∧ (codecState 0#64 1#32 0xFD04#16).width ≤ 8 ∧
      (codecState 0#64 1#32 0xFD04#16).ovf ≠ 3#2 ∧
      (codecState 0#64 1#32 0xFD04#16).offset + (codecState 0#64 1#32 0xFD04#16).width = 257) ∧
    CodecConfigOk (codecState 0x7FF8000000000000#64 1#32 0x0001#16) ∧
    f64IsNaN (codecState 0x7FF8000000000000#64 1#32 0x0001#16).value = true ∧
    f64IsInf (codecState 0xFFF0000000000000#64 1#32 0x0001#16).value = true := by
  unfold CodecConfigOk; decide +kernel

/-- The bytes B8 05 in RXBUF at scale 100, at the end of the buffer's range (OFFSET 254). -/
def decodeD9 : State := { codecState 0#64 100#32 0xFE02#16 with rxbuf := [(254, 0xB8#8), (255, 0x05#8)] }

theorem decodeD9_ok : CodecConfigOk decodeD9 := by
  unfold CodecConfigOk; decide

theorem witness_DecodeReadsTheField :
    (CodecConfigOk decodeD9 ∧ (decodeD9.srcStage, decodeD9.rxbuf) ∈ [(false, decodeD9.rxbuf), (true, decodeD9.stage)]) ∧
    ∃ s : State, s = { decodeD9 with codecCfg := 0xFE82#16 } ∧ CodecConfigOk s ∧
      (s.srcStage, s.stage) ∈ [(false, s.rxbuf), (true, s.stage)] := by
  refine ⟨⟨decodeD9_ok, .head _⟩, _, rfl, ?_, .tail _ (.head _)⟩
  unfold CodecConfigOk; decide

theorem witness_DecodedValueIsRoundedQuotient : CodecConfigOk decodeD9 ∧ ∃ t, exec .decode decodeD9 = .next t := by
  refine ⟨decodeD9_ok, ?_⟩
  have hc : codecCheck false decodeD9 = none := by decide
  simp only [exec, execDecode, hc]
  exact ⟨_, rfl⟩

/-- What ENCODE answers when its checks pass and the field is `n`. -/
def encoded (s : State) (n : Nat) : State := complete { placeField n s with raw := BitVec.ofNat 64 n }

theorem exec_encode_of {s : State} {n : Nat} (hc : codecCheck true s = none) (hf : f64IsFinite s.value = true)
    (hl : limitField (scaledProduct s.value s.scale.toNat) s.width s.ovf = some n) :
    exec .encode s = .next (encoded s n) := by
  simp only [exec, execEncode, hc, hf, hl, if_true, encoded]

theorem exec_encodeE4 : exec .encode encodeE4 = .next (encoded encodeE4 0x3039) :=
  exec_encode_of (by decide) (by decide) (by decide +kernel)

theorem witness_EncodeDecodeRoundTrip :
    encodeE4.stage.wf = true ∧ exec .encode encodeE4 = .next (encoded encodeE4 0x3039) ∧
    (encoded encodeE4 0x3039).cause = .none ∧
    ∃ u : State, u = { encoded encodeE4 0x3039 with codecCfg := 0x0092#16, scale := 7#32 } ∧
      u.width = encodeE4.width ∧ u.orderBig = encodeE4.orderBig ∧ u.offset = encodeE4.offset ∧ u.srcStage = true ∧
      u.scale ≠ 0#32 ∧ ∀ i, i < encodeE4.width →
        u.stage.read (encodeE4.offset + i) = (encoded encodeE4 0x3039).stage.read (encodeE4.offset + i) :=
  ⟨rfl, exec_encodeE4, rfl, _, rfl, by decide, by decide, by decide, by decide, by decide, fun _ _ => rfl⟩

/-- 255.0 at scale 1 (L1.7). -/
def encode255 : State := codecState 0x406FE00000000000#64 1#32 0x0001#16

theorem f64Val_nonneg {f : BitVec 64} (h : f64Neg f = false) : 0 ≤ f64Val f := by
  unfold f64Val
  rw [h, if_neg Bool.false_ne_true, one_mul]
  split <;> positivity

theorem witness_EncodeIsWithinOneUnit :
    exec .encode encode255 = .next (encoded encode255 255) ∧ (encoded encode255 255).cause = .none ∧
    f64IsFinite (scaledProduct encode255.value encode255.scale.toNat) = true ∧
    0 ≤ f64Trunc (scaledProduct encode255.value encode255.scale.toNat) ∧
    f64Trunc (scaledProduct encode255.value encode255.scale.toNat) < 2 ^ (8 * encode255.width) ∧
    f64Val (scaledProduct encode255.value encode255.scale.toNat) = f64Val encode255.value * encode255.scale.toNat ∧
    0 ≤ f64Val encode255.value := by
  have hp : scaledProduct encode255.value encode255.scale.toNat = encode255.value := by decide +kernel
  refine ⟨exec_encode_of (by decide) (by decide) (by decide +kernel), rfl, by decide +kernel, by decide +kernel,
    by decide +kernel, ?_, f64Val_nonneg (by decide)⟩
  rw [hp, show encode255.scale.toNat = 1 from rfl, Nat.cast_one, mul_one]

/-! #### Checksum and frames -/

theorem witness_CksumSumsTheRange :
    State.cksBuf { State.reset with cksCfg := 0x61900#19 } = 3#2 ∧
    (State.cksBuf { State.reset with cksCfg := 0x039C8#19 } ≠ 3#2 ∧
      State.cksStart { State.reset with cksCfg := 0x039C8#19 } + State.cksLen { State.reset with cksCfg := 0x039C8#19 } = 257) ∧
    (State.cksBuf { State.reset with cksCfg := 0x10000#19 } = 0#2 ∧
      State.cksStart { State.reset with cksCfg := 0x10000#19 } + State.cksLen { State.reset with cksCfg := 0x10000#19 } = 256) ∧
    State.cksBuf { State.reset with cksCfg := 0x30000#19 } = 1#2 ∧
    State.cksBuf { State.reset with cksCfg := 0x50000#19 } = 2#2 := by decide

theorem witness_ChecksumDetectsOneByte :
    3 ≤ 5 ∧ 5 < 3 + 3 ∧ Memory.read [] 5 ≠ Memory.read [(5, 1#8)] 5 ∧
    ∀ j, j ≠ 5 → Memory.read [] j = Memory.read [(5, 1#8)] j :=
  ⟨by decide, by decide, by decide, fun j h => by simp [Memory.read, Memory.unlisted, Ne.symm h]⟩

theorem witness_BuildLoadWritesTheFrame :
    (1 ≤ (buildState 31#8 1#9 []).oplen.toNat ∧ (buildState 31#8 1#9 []).oplen.toNat ≤ 23 ∧
      (buildState 31#8 1#9 []).addr.toNat ≤ 31 ∧ (buildState 31#8 1#9 []).txbuf.wf = true) ∧
    (1 ≤ (buildState 0xFF#8 23#9 []).oplen.toNat ∧ (buildState 0xFF#8 23#9 []).oplen.toNat ≤ 23 ∧
      (buildState 0xFF#8 23#9 []).addr = 0xFF#8 ∧ (buildState 0xFF#8 23#9 []).txbuf.wf = true) := by decide

theorem witness_BuildMeterWritesTheFrame :
    (2 ≤ (buildState 1#8 2#9 []).oplen.toNat ∧ (buildState 1#8 2#9 []).oplen.toNat ≤ 250 ∧
      1 ≤ (buildState 1#8 2#9 []).addr.toNat ∧ (buildState 1#8 2#9 []).addr.toNat ≤ 254) ∧
    (2 ≤ (buildState 254#8 250#9 []).oplen.toNat ∧ (buildState 254#8 250#9 []).oplen.toNat ≤ 250 ∧
      1 ≤ (buildState 254#8 250#9 []).addr.toNat ∧ (buildState 254#8 250#9 []).addr.toNat ≤ 254 ∧
      (buildState 254#8 250#9 []).txbuf.wf = true) := by decide

theorem witness_BuilderFaults :
    (buildState 32#8 0#9 []).oplen.toNat = 0 ∧ 23 < (buildState 0#8 24#9 []).oplen.toNat ∧
    (1 ≤ (buildState 32#8 1#9 []).oplen.toNat ∧ (buildState 32#8 1#9 []).oplen.toNat ≤ 23 ∧
      32 ≤ (buildState 32#8 1#9 []).addr.toNat ∧ (buildState 32#8 1#9 []).addr.toNat ≤ 254) ∧
    (buildState 0#8 1#9 []).oplen.toNat < 2 ∧ 250 < (buildState 0#8 251#9 []).oplen.toNat ∧
    (2 ≤ (buildState 0#8 2#9 []).oplen.toNat ∧ (buildState 0#8 2#9 []).oplen.toNat ≤ 250 ∧
      (buildState 0#8 2#9 []).addr = 0x00#8 ∧ (buildState 0xFF#8 2#9 []).addr = 0xFF#8) := by decide

/-- The operands of the meter frame of L2.5 BM1. -/
def buildBM1 : State := buildState 1#8 2#9 [0x10#8, 0x20#8]

/-- The operands of a load frame of opcode 12 and status byte 80. -/
def buildReply : State := buildState 0#8 2#9 [0x12#8, 0x80#8]

theorem witness_BuildersAreDeterministic :
    buildBM1.txbuf.wf = true ∧ State.oplen { buildBM1 with scale := 7#32 } = buildBM1.oplen ∧
    (∃ t, exec .buildMeter buildBM1 = .next t ∧ t.cause = .none) ∧
    (∃ v, exec .buildMeter { buildBM1 with scale := 7#32 } = .next v) ∧
    (∃ t, exec .buildLoad buildReply = .next t ∧ t.cause = .none) :=
  ⟨rfl, rfl, ⟨_, rfl, by decide⟩, ⟨_, rfl⟩, ⟨_, rfl, by decide⟩⟩

theorem witness_EmbeddedLengthIsTransmittedLength :
    (buildBM1.txbuf.wf = true ∧ ∃ t, exec .buildMeter buildBM1 = .next t ∧ t.cause = .none) ∧
    (buildReply.txbuf.wf = true ∧ ∃ t, exec .buildLoad buildReply = .next t ∧ t.cause = .none) :=
  ⟨⟨rfl, _, rfl, by decide⟩, rfl, _, rfl, by decide⟩

theorem witness_BuiltFramesAreVerified :
    (∃ t, exec .buildLoad buildReply = .next t ∧ t.cause = .none ∧
      ∃ u : State, u = { t with rxbuf := t.txbuf, rxlen := t.txlen, parseCfg := 0x0312#16 } ∧
        u.rxlen = t.txlen ∧ (∀ k, k < t.txlen.toNat → u.rxbuf.read k = t.txbuf.read k) ∧
        u.valopc = buildReply.stage.read 0) ∧
    (∃ t, exec .buildMeter buildBM1 = .next t ∧ t.cause = .none ∧
      ∃ u : State, u = { t with rxbuf := t.txbuf, rxlen := t.txlen, parseCfg := 0x0312#16 } ∧
        u.rxlen = t.txlen ∧ (∀ k, k < t.txlen.toNat → u.rxbuf.read k = t.txbuf.read k) ∧
        3 ≤ u.resOfs ∧ u.resOfs + 4 ≤ t.txlen.toNat) :=
  ⟨⟨_, rfl, by decide, _, rfl, rfl, fun _ _ => rfl, by decide⟩,
    ⟨_, rfl, by decide, _, rfl, rfl, fun _ _ => rfl, by decide, by decide⟩⟩

/-! #### The link -/

theorem witness_SendTransmits :
    (1 ≤ (sending 0x20#32 256#9).txlen.toNat ∧ (sending 0x20#32 256#9).txlen.toNat ≤ 256) ∧
    1 ≤ (sending 0x20#32 1#9).txlen.toNat ∧ (sending 0x20#32 0#9).txlen.toNat = 0 ∧
    256 < (sending 0x20#32 257#9).txlen.toNat := by decide

theorem witness_QueryTransmits :
    (sending 0x22#32 256#9).ph = .start ∧
    (1 ≤ (sending 0x22#32 256#9).txlen.toNat ∧ (sending 0x22#32 256#9).txlen.toNat ≤ 256) ∧
    1 ≤ (sending 0x22#32 1#9).txlen.toNat ∧ (sending 0x22#32 0#9).txlen.toNat = 0 ∧
    256 < (sending 0x22#32 257#9).txlen.toNat := by decide

theorem witness_ReceivePhaseStarts :
    (running 0x21#32 []).ph = .start ∧ State.ph { running 0x22#32 [] with ph := .recvStart } = .recvStart := by decide

/-- In phase WAIT or DRAIN with `len` bytes held, one retry of three used, and one listed answer. -/
def polling (p : Phase) (st : LinkState) (len : BitVec 9) (bs : List Byte) : State :=
  receiving p st 3#19 1#16 len [bs]

theorem witness_WaitStepOutcomes :
    (polling .wait .waiting 0#9 []).ph = .wait ∧
    (receiving .wait .waiting 3#19 3#16 0#9 []).maxRetries ≤ (receiving .wait .waiting 3#19 3#16 0#9 []).retryCnt.toNat ∧
    (polling .wait .waiting 0#9 []).retryCnt.toNat < (polling .wait .waiting 0#9 []).maxRetries ∧
    pollAnswer (polling .wait .waiting 0#9 []).env = [] ∧
    pollAnswer (polling .wait .waiting 255#9 [7#8]).env = [7#8] ∧
    (polling .wait .waiting 255#9 [7#8]).rxbuf.wf = true ∧
    (polling .wait .waiting 255#9 [7#8]).rxlen.toNat + [7#8].length = 256 ∧
    pollAnswer (polling .wait .waiting 255#9 [7#8, 8#8]).env = [7#8, 8#8] ∧
    (polling .wait .waiting 255#9 [7#8, 8#8]).rxlen.toNat ≤ 256 ∧
    (polling .wait .waiting 255#9 [7#8, 8#8]).rxlen.toNat + [7#8, 8#8].length = 257 := by decide

theorem witness_DrainStepOutcomes :
    (polling .drain .draining 26#9 []).ph = .drain ∧ pollAnswer (polling .drain .draining 26#9 []).env = [] ∧
    pollAnswer (polling .drain .draining 255#9 [7#8]).env = [7#8] ∧
    (polling .drain .draining 255#9 [7#8]).rxbuf.wf = true ∧
    (polling .drain .draining 255#9 [7#8]).rxlen.toNat + [7#8].length = 256 ∧
    pollAnswer (polling .drain .draining 256#9 [7#8]).env = [7#8] ∧
    (polling .drain .draining 256#9 [7#8]).rxlen.toNat ≤ 256 ∧
    256 < (polling .drain .draining 256#9 [7#8]).rxlen.toNat + [7#8].length := by decide

/-- RECV or QUERY accepted, with MAX_RETRIES and the link's answers. -/
def accepted (w : Word) (retries : BitVec 19) (answers : List (List Byte)) : State :=
  { accept w State.reset with linkCfg := retries, env := { Environment.initial with answers := answers } }

theorem witness_RetryBoundReceives :
    JustAccepted .recv (accepted 0x21#32 3#19 [[], [], [7#8], []]) ∧
    (accepted 0x21#32 3#19 [[], [], [7#8], []]).rxbuf.wf = true ∧
    (accepted 0x21#32 3#19 [[], [], [7#8], []]).env.answers = List.replicate 2 [] ++ [7#8] :: [] :: [] ∧
    [7#8].length ≤ 256 ∧ 2 + 1 ≤ (accepted 0x21#32 3#19 [[], [], [7#8], []]).maxRetries :=
  ⟨⟨rfl, rfl, rfl, by decide⟩, rfl, rfl, by decide, by decide⟩

theorem witness_RetryBoundTimesOut :
    (JustAccepted .recv (accepted 0x21#32 2#19 [[], [], [7#8]]) ∧
      (accepted 0x21#32 2#19 [[], [], [7#8]]).env.answers = List.replicate 2 [] ++ [[7#8]] ∧
      (accepted 0x21#32 2#19 [[], [], [7#8]]).maxRetries = 2) ∧
    (JustAccepted .recv (accepted 0x21#32 0#19 []) ∧
      (accepted 0x21#32 0#19 []).env.answers = List.replicate 0 [] ++ [] ∧
      (accepted 0x21#32 0#19 []).maxRetries = 0) :=
  ⟨⟨⟨rfl, rfl, rfl, by decide⟩, rfl, by decide⟩, ⟨rfl, rfl, rfl, by decide⟩, rfl, by decide⟩

theorem witness_ReceiveTerminates :
    JustAccepted .recv (accepted 0x21#32 2#19 []) ∧ JustAccepted .query (accepted 0x22#32 2#19 []) :=
  ⟨⟨rfl, rfl, rfl, by decide⟩, rfl, rfl, rfl, by decide⟩

/-! #### The parsers -/

/-- A received load frame with VALOPC 12 (L2.7). -/
def loadReplyState (st c : Byte) : State := receivedState (loadReply st c) 0x0312#16

/-- A received meter frame with RES_OFS 3 (L2.8). -/
def meterReplyState (r c : Byte) : State := receivedState (meterReply r c) 0x0312#16

theorem validLoadFrame_of {s : State} (h : s.rxlen.toNat = 26 ∧ s.rxbuf.read 0 = 0xAA#8 ∧
    s.rxbuf.sum8 0 25 = s.rxbuf.read 25 ∧ s.rxbuf.read 2 = s.valopc) : ValidLoadFrame s :=
  ⟨h.1, h.2.1, by rw [← h.2.2.1, Memory.sum8_toNat, sumMod256], h.2.2.2⟩

theorem validMeterFrame_of {s : State} (h : 8 ≤ s.rxlen.toNat ∧ s.rxlen.toNat ≤ 256 ∧ s.rxbuf.read 0 = 0x7B#8 ∧
    s.rxbuf.read (s.rxlen.toNat - 1) = 0x7D#8 ∧
    (s.rxbuf.read 1).toNat * 256 + (s.rxbuf.read 2).toNat = s.rxlen.toNat ∧
    s.rxbuf.sum8 1 (s.rxlen.toNat - 3) = s.rxbuf.read (s.rxlen.toNat - 2)) : ValidMeterFrame s :=
  ⟨h.1, h.2.1, h.2.2.1, h.2.2.2.1, h.2.2.2.2.1, by rw [← h.2.2.2.2.2, Memory.sum8_toNat, sumMod256]⟩

theorem loadReply_valid : ValidLoadFrame (loadReplyState 0x80#8 0x3C#8) ∧ ValidLoadFrame (loadReplyState 0xD0#8 0x8C#8) ∧
    ValidLoadFrame (loadReplyState 0xE0#8 0x9C#8) := by
  refine ⟨?_, ?_, ?_⟩ <;> exact validLoadFrame_of (by decide +kernel)

theorem meterReply_valid : ValidMeterFrame (meterReplyState 0x00#8 0x3A#8) ∧
    ValidMeterFrame (meterReplyState 0x01#8 0x3B#8) ∧ ValidMeterFrame (meterReplyState 0x02#8 0x3C#8) := by
  refine ⟨?_, ?_, ?_⟩ <;> exact validMeterFrame_of (by decide +kernel)

/-- Reset with RXLEN set. -/
def lengthState (n : BitVec 9) : State := { State.reset with rxlen := n }

/-- A load frame with one byte of RXBUF replaced (L2.7), or a meter frame (L2.8). -/
def patched (s : State) (k : Nat) (b : Byte) : State := { s with rxbuf := s.rxbuf.write k b }

theorem witness_ParseLoadRejects :
    256 < (lengthState 257#9).rxlen.toNat ∧
    ((lengthState 256#9).rxlen.toNat ≤ 256 ∧ (lengthState 256#9).rxlen.toNat ≠ 26) ∧
    ((lengthState 26#9).rxlen.toNat = 26 ∧ (lengthState 26#9).rxbuf.read 0 ≠ 0xAA#8) ∧
    (∃ s, s = patched (loadReplyState 0x80#8 0x3C#8) 25 0x3D#8 ∧ s.rxlen.toNat = 26 ∧ s.rxbuf.read 0 = 0xAA#8 ∧
      sumMod256 s.rxbuf 0 25 ≠ (s.rxbuf.read 25).toNat) ∧
    (∃ s, s = { loadReplyState 0x80#8 0x3C#8 with parseCfg := 0x0313#16 } ∧ s.rxlen.toNat = 26 ∧
      s.rxbuf.read 0 = 0xAA#8 ∧ sumMod256 s.rxbuf 0 25 = (s.rxbuf.read 25).toNat ∧ s.rxbuf.read 2 ≠ s.valopc) := by
  refine ⟨by decide, by decide, by decide, ⟨_, rfl, by decide +kernel, by decide +kernel, ?_⟩,
    ⟨_, rfl, by decide +kernel, by decide +kernel, ?_, by decide +kernel⟩⟩
  · rw [sumMod256, ← Memory.sum8_toNat]; decide +kernel
  · rw [sumMod256, ← Memory.sum8_toNat]; decide +kernel

theorem witness_ParseLoadClassifies :
    (ValidLoadFrame (loadReplyState 0x80#8 0x3C#8) ∧ (loadReplyState 0x80#8 0x3C#8).rxbuf.read 3 = 0x80#8) ∧
    (ValidLoadFrame (loadReplyState 0xD0#8 0x8C#8) ∧ (loadReplyState 0xD0#8 0x8C#8).rxbuf.read 3 = 0xD0#8) ∧
    (ValidLoadFrame (loadReplyState 0xE0#8 0x9C#8) ∧
      (loadReplyState 0xE0#8 0x9C#8).rxbuf.read 3 ∉ [0x80#8, 0x90#8, 0xA0#8, 0xB0#8, 0xC0#8, 0xD0#8]) :=
  ⟨⟨loadReply_valid.1, by decide +kernel⟩, ⟨loadReply_valid.2.1, by decide +kernel⟩, loadReply_valid.2.2,
    by decide +kernel⟩

theorem witness_ParseMeterRejects :
    256 < (lengthState 257#9).rxlen.toNat ∧ (lengthState 7#9).rxlen.toNat < 8 ∧
    (8 ≤ (lengthState 256#9).rxlen.toNat ∧ (lengthState 256#9).rxlen.toNat ≤ 256 ∧
      (lengthState 256#9).rxbuf.read 0 ≠ 0x7B#8) ∧
    (∃ s, s = patched (meterReplyState 0x00#8 0x3A#8) 8 0x00#8 ∧ s.rxlen.toNat = 9 ∧ s.rxbuf.read 0 = 0x7B#8 ∧
      s.rxbuf.read (s.rxlen.toNat - 1) ≠ 0x7D#8) ∧
    (∃ s, s = patched (meterReplyState 0x00#8 0x3A#8) 2 0x08#8 ∧ s.rxlen.toNat = 9 ∧ s.rxbuf.read 0 = 0x7B#8 ∧
      s.rxbuf.read (s.rxlen.toNat - 1) = 0x7D#8 ∧
      (s.rxbuf.read 1).toNat * 256 + (s.rxbuf.read 2).toNat ≠ s.rxlen.toNat) ∧
    (∃ s, s = patched (meterReplyState 0x00#8 0x3A#8) 7 0x00#8 ∧ s.rxlen.toNat = 9 ∧ s.rxbuf.read 0 = 0x7B#8 ∧
      s.rxbuf.read (s.rxlen.toNat - 1) = 0x7D#8 ∧
      (s.rxbuf.read 1).toNat * 256 + (s.rxbuf.read 2).toNat = s.rxlen.toNat ∧
      sumMod256 s.rxbuf 1 (s.rxlen.toNat - 3) ≠ (s.rxbuf.read (s.rxlen.toNat - 2)).toNat) ∧
    (ValidMeterFrame { meterReplyState 0x00#8 0x3A#8 with parseCfg := 0x0212#16 } ∧
      State.resOfs { meterReplyState 0x00#8 0x3A#8 with parseCfg := 0x0212#16 } = 2) ∧
    (ValidMeterFrame { meterReplyState 0x00#8 0x3A#8 with parseCfg := 0x0612#16 } ∧
      State.resOfs { meterReplyState 0x00#8 0x3A#8 with parseCfg := 0x0612#16 } = 6) := by
  refine ⟨by decide, by decide, by decide, ⟨_, rfl, by decide, by decide, by decide⟩,
    ⟨_, rfl, by decide, by decide, by decide, by decide⟩,
    ⟨_, rfl, by decide, by decide, by decide, by decide, ?_⟩,
    ⟨validMeterFrame_of (by decide), by decide⟩, ⟨validMeterFrame_of (by decide), by decide⟩⟩
  rw [sumMod256, ← Memory.sum8_toNat]; decide

/-- The result byte PARSE_METER reads. -/
def resultByte (s : State) : Byte := s.rxbuf.read (s.rxlen.toNat - s.resOfs)

theorem witness_ParseMeterClassifies :
    (ValidMeterFrame (meterReplyState 0x00#8 0x3A#8) ∧ (meterReplyState 0x00#8 0x3A#8).resOfs = 3 ∧
      resultByte (meterReplyState 0x00#8 0x3A#8) = 0x00#8) ∧
    (ValidMeterFrame (meterReplyState 0x01#8 0x3B#8) ∧ resultByte (meterReplyState 0x01#8 0x3B#8) = 0x01#8) ∧
    (ValidMeterFrame (meterReplyState 0x02#8 0x3C#8) ∧ (meterReplyState 0x02#8 0x3C#8).rxlen.toNat = 9 ∧
      resultByte (meterReplyState 0x02#8 0x3C#8) = 0x02#8) :=
  ⟨⟨meterReply_valid.1, by decide, by decide⟩, ⟨meterReply_valid.2.1, by decide⟩, meterReply_valid.2.2, by decide, by decide⟩

/-- A buffer that is another one with a different byte at `k` differs from it there and only there. -/
theorem patched_differs (s : State) (k : Nat) (b : Byte) (hw : s.rxbuf.wf = true) (hk : k < 256)
    (hb : b ≠ s.rxbuf.read k) : (patched s k b).rxbuf.read k ≠ s.rxbuf.read k ∧
      ∀ j, j ≠ k → (patched s k b).rxbuf.read j = s.rxbuf.read j := by
  constructor
  · rw [patched, Memory.read_write k k b hw hk, if_pos rfl]; exact hb
  · intro j hj
    rw [patched, Memory.read_write k j b hw hk, if_neg hj]

theorem witness_CorruptedLoadFrameIsRejected (k : Nat) (hk : k = 0 ∨ k = 1 ∨ k = 25) :
    ∃ s u : State, ValidLoadFrame s ∧ k < 26 ∧ u.rxlen = s.rxlen ∧ u.valopc = s.valopc ∧
      u.rxbuf.read k ≠ s.rxbuf.read k ∧ ∀ j, j ≠ k → u.rxbuf.read j = s.rxbuf.read j := by
  refine ⟨loadReplyState 0x80#8 0x3C#8, patched (loadReplyState 0x80#8 0x3C#8) k 0x55#8, loadReply_valid.1, by omega,
    rfl, rfl, patched_differs _ k _ (by decide +kernel) (by omega) ?_⟩
  rcases hk with rfl | rfl | rfl <;> decide +kernel

theorem witness_CorruptedMeterFrameIsRejected (k : Nat) (hk : k = 0 ∨ k = 1 ∨ k = 2 ∨ k = 3 ∨ k = 7 ∨ k = 8) :
    ∃ s u : State, ValidMeterFrame s ∧ k < s.rxlen.toNat ∧ s.rxlen.toNat = 9 ∧ u.rxlen = s.rxlen ∧
      u.rxbuf.read k ≠ s.rxbuf.read k ∧ ∀ j, j ≠ k → u.rxbuf.read j = s.rxbuf.read j := by
  have h9 : (meterReplyState 0x00#8 0x3A#8).rxlen.toNat = 9 := by decide
  refine ⟨meterReplyState 0x00#8 0x3A#8, patched (meterReplyState 0x00#8 0x3A#8) k 0x55#8, meterReply_valid.1,
    by omega, h9, rfl, patched_differs _ k _ (by decide) (by omega) ?_⟩
  rcases hk with rfl | rfl | rfl | rfl | rfl | rfl <;> decide

end Sys2Proof.Tests
end

section
/-! SUPPORT. What every command leaves alone: one frame lemma per command, read off the cases of its next state, and the
obligation of R12, R82 and R150. -/

namespace Sys2Proof.Machine

open Sys2Proof

/-- What the link engine leaves alone: the registers and buffers only the codec, the checksum unit, the builders and
the parsers write, equal in both states. -/
def SameResults (s t : State) : Prop :=
  t.stage = s.stage ∧ t.raw = s.raw ∧ t.dval = s.dval ∧ t.cks = s.cks ∧ t.txbuf = s.txbuf ∧ t.txlen = s.txlen ∧
  t.result = s.result

/-- `t` differs from `s` only where command `i` may write (R12, R82, R150). -/
def CommandFrame (i : Instr) (s t : State) : Prop :=
  SameHostState s t ∧
  (i ≠ .encode → t.stage = s.stage) ∧
  (i ≠ .encode → i ≠ .decode → t.raw = s.raw) ∧
  (i ≠ .decode → t.dval = s.dval) ∧
  (i ≠ .cksum → t.cks = s.cks) ∧
  (i ≠ .buildLoad → i ≠ .buildMeter → t.txbuf = s.txbuf ∧ t.txlen = s.txlen) ∧
  (i ≠ .parseLoad → i ≠ .parseMeter → t.result = s.result) ∧
  (i ≠ .send → i ≠ .recv → i ≠ .query → SameLinkState s t) ∧
  (i = .send → t.rxlen = s.rxlen ∧ t.retryCnt = s.retryCnt ∧ t.rxbuf = s.rxbuf ∧ t.ph = s.ph ∧ t.timer = s.timer)

/-- A command that raises a fault at once keeps its frame, whatever it is. -/
theorem commandFrame_raiseFault (i : Instr) (c : FaultCause) (s : State) : CommandFrame i s (raiseFault c s) := by
  simp [CommandFrame, SameHostState, SameLinkState]

/-- RECV and QUERY keep their frame when they keep the host's state and the other units' results. -/
theorem commandFrame_of_receives {i : Instr} {s t : State} (hi : i = .recv ∨ i = .query) (hh : SameHostState s t)
    (hr : SameResults s t) : CommandFrame i s t := by
  obtain ⟨hstage, hraw, hdval, hcks, htxbuf, htxlen, hresult⟩ := hr
  refine ⟨hh, fun _ => hstage, fun _ _ => hraw, fun _ => hdval, fun _ => hcks, fun _ _ => ⟨htxbuf, htxlen⟩,
    fun _ _ => hresult, fun _ h1 h2 => ?_, fun h => ?_⟩
  · exact (hi.elim h1 h2).elim
  · rcases hi with rfl | rfl <;> cases h

/-! ### The codec, the checksum unit, the builders and the parsers -/

theorem execEncode_frame {s t : State} (h : execEncode s = .next t) : CommandFrame .encode s t := by
  obtain ⟨c, -, rfl⟩ | ⟨n, -, -, -, rfl⟩ := execEncode_cases h
  · exact commandFrame_raiseFault _ c s
  · simp [CommandFrame, SameHostState, SameLinkState, placeField]

theorem execDecode_frame {s t : State} (h : execDecode s = .next t) : CommandFrame .decode s t := by
  obtain ⟨c, -, rfl⟩ | ⟨-, rfl⟩ := execDecode_cases h
  · exact commandFrame_raiseFault _ c s
  · simp [CommandFrame, SameHostState, SameLinkState]

theorem execCksum_frame {s t : State} (h : execCksum s = .next t) : CommandFrame .cksum s t := by
  obtain ⟨c, -, rfl⟩ | ⟨-, -, rfl⟩ := execCksum_cases h
  · exact commandFrame_raiseFault _ c s
  · simp [CommandFrame, SameHostState, SameLinkState]

theorem execBuildLoad_frame {s t : State} (h : execBuildLoad s = .next t) : CommandFrame .buildLoad s t := by
  obtain ⟨c, -, rfl⟩ | ⟨-, -, -, rfl⟩ := execBuildLoad_cases h
  · exact commandFrame_raiseFault _ c s
  · simp [CommandFrame, SameHostState, SameLinkState]

theorem execBuildMeter_frame {s t : State} (h : execBuildMeter s = .next t) : CommandFrame .buildMeter s t := by
  obtain ⟨c, -, rfl⟩ | ⟨-, -, -, rfl⟩ := execBuildMeter_cases h
  · exact commandFrame_raiseFault _ c s
  · simp [CommandFrame, SameHostState, SameLinkState]

/-- Each outcome of a parser writes RESULT and the end of the command only. -/
theorem ParseOutcome.frame {i : Instr} {s t : State} (hi : i = .parseLoad ∨ i = .parseMeter) (h : ParseOutcome s t) :
    CommandFrame i s t := by
  obtain rfl | ⟨k, l, b, d, -, -, rfl⟩ | ⟨k, b, rfl⟩ := h
  · exact commandFrame_raiseFault i _ s
  all_goals rcases hi with rfl | rfl <;> simp [CommandFrame, SameHostState, SameLinkState]

/-! ### The link engine -/

theorem execSend_frame {s t : State} (h : execSend s = .next t) : CommandFrame .send s t := by
  obtain rfl | ⟨-, rfl⟩ := execSend_cases h
  · exact commandFrame_raiseFault _ _ s
  · simp [CommandFrame, SameHostState, transmit]

theorem recvStart_keeps (s : State) : SameHostState s (recvStart s) ∧ SameResults s (recvStart s) := by
  simp [SameHostState, SameResults, recvStart]

theorem waitStep_keeps {s t : State} (h : waitStep s = .next t) : SameHostState s t ∧ SameResults s t := by
  obtain ⟨-, rfl⟩ | ⟨-, -, rfl⟩ | ⟨b, bs, -, -, -, rfl⟩ | ⟨b, bs, -, -, -, rfl⟩ := waitStep_cases h
  all_goals simp [SameHostState, SameResults, storeReceived]

theorem drainStep_keeps {s t : State} (h : drainStep s = .next t) : SameHostState s t ∧ SameResults s t := by
  obtain ⟨-, rfl⟩ | ⟨b, bs, -, -, rfl⟩ | ⟨b, bs, -, -, rfl⟩ := drainStep_cases h
  all_goals simp [SameHostState, SameResults, storeReceived]

theorem execRecv_frame {s t : State} (h : execRecv s = .next t) : CommandFrame .recv s t := by
  obtain ⟨hh, hr⟩ : SameHostState s t ∧ SameResults s t := by
    obtain ⟨-, rfl⟩ | ⟨-, hw⟩ | ⟨-, hd⟩ := execRecv_cases h
    · exact recvStart_keeps s
    · exact waitStep_keeps hw
    · exact drainStep_keeps hd
  exact commandFrame_of_receives (.inl rfl) hh hr

theorem execQuery_frame {s t : State} (h : execQuery s = .next t) : CommandFrame .query s t := by
  obtain ⟨-, rfl⟩ | hq := execQuery_cases h
  · exact commandFrame_raiseFault _ _ s
  obtain ⟨hh, hr⟩ : SameHostState s t ∧ SameResults s t := by
    obtain ⟨-, -, rfl⟩ | ⟨-, rfl⟩ | ⟨-, hw⟩ | ⟨-, hd⟩ := hq
    · simp [SameHostState, SameResults, transmit]
    · exact recvStart_keeps s
    · exact waitStep_keeps hw
    · exact drainStep_keeps hd
  exact commandFrame_of_receives (.inr rfl) hh hr

/-- Every command keeps its frame. -/
theorem exec_frame (i : Instr) {s t : State} (h : exec i s = .next t) : CommandFrame i s t := by
  cases i with
  | encode => exact execEncode_frame h
  | decode => exact execDecode_frame h
  | cksum => exact execCksum_frame h
  | buildLoad => exact execBuildLoad_frame h
  | buildMeter => exact execBuildMeter_frame h
  | send => exact execSend_frame h
  | recv => exact execRecv_frame h
  | query => exact execQuery_frame h
  | parseLoad => exact (execParseLoad_cases h).frame (.inl rfl)
  | parseMeter => exact (execParseMeter_cases h).frame (.inr rfl)

/-- Settles O28: each command's frame, read off the cases of its next state. -/
theorem commandsTouchOnlyTheirOwnState : Obligations.CommandsTouchOnlyTheirOwnState :=
  fun i _ _ h => exec_frame i h

end Sys2Proof.Machine
end

section
/-! SUPPORT. Binary64 rounding over the rationals: the nearest significand on the grid of its binade, the fields that
hold it, and the obligation of R11. -/

namespace Sys2Proof.Machine

open Sys2Proof

/-! ### The integer nearest to a quotient -/

/-- `roundHalfEven n d` is within half of `n / d`, and even where it is exactly half away. -/
theorem roundHalfEven_bounds (n d : Nat) (hd : 0 < d) :
    2 * (roundHalfEven n d * d) ≤ 2 * n + d ∧ 2 * n ≤ 2 * (roundHalfEven n d * d) + d ∧
    (2 * (roundHalfEven n d * d) = 2 * n + d ∨ 2 * n = 2 * (roundHalfEven n d * d) + d → roundHalfEven n d % 2 = 0) := by
  have hn := Nat.div_add_mod n d
  have hr := Nat.mod_lt n hd
  unfold roundHalfEven
  split
  · rw [Nat.mul_comm (n / d) d]; omega
  · split
    · rw [Nat.add_mul, Nat.mul_comm (n / d) d]; omega
    · obtain hp | hp := Nat.mod_two_eq_zero_or_one (n / d) <;> rw [hp, Nat.add_mul, Nat.mul_comm (n / d) d] <;> omega

/-- No multiple of `d` is nearer to `n` than `roundHalfEven n d` times `d`, and it is even when another is as near. -/
theorem roundHalfEven_nearest (n d : Nat) (hd : 0 < d) (k : ℤ) :
    |(roundHalfEven n d : ℤ) * d - n| ≤ |k * d - n| ∧
    (|(roundHalfEven n d : ℤ) * d - n| = |k * d - n| → k ≠ roundHalfEven n d → roundHalfEven n d % 2 = 0) := by
  obtain ⟨hlow, hhigh, heven⟩ := roundHalfEven_bounds n d hd
  generalize roundHalfEven n d = r at *
  zify at hlow hhigh heven hd
  obtain hk | rfl | hk := lt_trichotomy k (r : ℤ)
  · have hgap : (k + 1) * d ≤ r * d := mul_le_mul_of_nonneg_right hk hd.le
    constructor <;> grind
  · simp
  · have hgap : (r + 1 : ℤ) * d ≤ k * d := mul_le_mul_of_nonneg_right hk hd.le
    constructor <;> grind

/-! ### The 53-bit significand of a quotient -/

/-- `n / d` lies below the binade after that of `excessBits`, and in no earlier one. -/
theorem excessBits_bounds (n d : Nat) (hd : 0 < d) :
    n < 2 ^ (53 + excessBits (n / d)) * d ∧
    (excessBits (n / d) ≠ 0 → 2 ^ (52 + excessBits (n / d)) * d ≤ n) := by
  have hlog := Nat.lt_log2_self (n := n / d)
  have hexp : (n / d).log2 + 1 ≤ 53 + excessBits (n / d) := by unfold excessBits; omega
  constructor
  · rw [← Nat.div_lt_iff_lt_mul hd]
    exact hlog.trans_le (Nat.pow_le_pow_right (by decide) hexp)
  · intro he
    rw [← Nat.le_div_iff_mul_le hd]
    have hexp' : 52 + excessBits (n / d) = (n / d).log2 := by unfold excessBits at he ⊢; omega
    rw [hexp']
    apply Nat.log2_self_le
    intro h0
    simp [excessBits, h0] at he

/-- The significand `rne64` computes for `n / d` units of `2^(−1074)`: the nearest multiple of the spacing there. -/
def significand (n d : Nat) : Nat := roundHalfEven n (d * 2 ^ excessBits (n / d))

/-- `n / d` rounded as `rne64` rounds it, in units of `2^(−1074)`. -/
def roundedUnits (n d : Nat) : Nat := significand n d * 2 ^ excessBits (n / d)

/-- The significand times the spacing is within half a spacing of `n / d`, and even where it is exactly half away. -/
theorem significand_error (n d : Nat) (hd : 0 < d) :
    2 * (significand n d * (d * 2 ^ excessBits (n / d))) ≤ 2 * n + d * 2 ^ excessBits (n / d) ∧
    2 * n ≤ 2 * (significand n d * (d * 2 ^ excessBits (n / d))) + d * 2 ^ excessBits (n / d) ∧
    (2 * (significand n d * (d * 2 ^ excessBits (n / d))) = 2 * n + d * 2 ^ excessBits (n / d) ∨
      2 * n = 2 * (significand n d * (d * 2 ^ excessBits (n / d))) + d * 2 ^ excessBits (n / d) →
      significand n d % 2 = 0) :=
  roundHalfEven_bounds n _ (by positivity)

/-- The significand has 53 bits, or is the carry to `2^53`; below `2^52` only in the lowest binades. -/
theorem significand_bounds (n d : Nat) (hd : 0 < d) :
    significand n d ≤ 2 ^ 53 ∧ (excessBits (n / d) = 0 ∨ 2 ^ 52 ≤ significand n d) := by
  obtain ⟨hlt, hge⟩ := excessBits_bounds n d hd
  obtain ⟨hlow, hhigh, -⟩ := significand_error n d hd
  rw [pow_add, mul_assoc, mul_comm _ d] at hlt hge
  generalize excessBits (n / d) = e at *
  generalize significand n d = m at *
  generalize d * 2 ^ e = D at *
  constructor
  · by_contra hm
    have := Nat.mul_le_mul_right D (Nat.lt_of_not_le hm)
    omega
  · by_contra! hm
    obtain ⟨he, hm⟩ := hm
    have := Nat.mul_le_mul_right D (show m + 1 ≤ 2 ^ 52 from hm)
    rw [Nat.add_mul] at this
    have := hge he
    omega

/-- Among the integers `z` on the grid of `n / d`, that is the multiples of `2^excess` and the smaller numbers of the
earlier binades, none is nearer to `n / d` than the rounded value, and the significand is even on a tie. -/
theorem roundedUnits_nearest (n d : Nat) (hd : 0 < d) (z : ℤ)
    (hz : (2 : ℤ) ^ excessBits (n / d) ∣ z ∨ |z| < 2 ^ (52 + excessBits (n / d))) :
    |(roundedUnits n d : ℤ) * d - n| ≤ |z * d - n| ∧
    (|(roundedUnits n d : ℤ) * d - n| = |z * d - n| → z ≠ roundedUnits n d → significand n d % 2 = 0) := by
  have hge := (excessBits_bounds n d hd).2
  have hD : 0 < d * 2 ^ excessBits (n / d) := by positivity
  have hnear := roundHalfEven_nearest n _ hD
  unfold roundedUnits significand
  generalize excessBits (n / d) = e at *
  generalize roundHalfEven n (d * 2 ^ e) = m at *
  have hmd : ((m * 2 ^ e : Nat) : ℤ) * d = m * ((d * 2 ^ e : Nat) : ℤ) := by push_cast; ring
  rw [hmd]
  by_cases hdvd : (2 : ℤ) ^ e ∣ z
  · obtain ⟨k, rfl⟩ := hdvd
    have hkd : (2 : ℤ) ^ e * k * d = k * ((d * 2 ^ e : Nat) : ℤ) := by push_cast; ring
    rw [hkd]
    refine ⟨(hnear k).1, fun htie hne => (hnear k).2 htie ?_⟩
    rintro rfl
    exact hne (by push_cast; ring)
  · have hlt : z < 2 ^ (52 + e) := (le_abs_self z).trans_lt (hz.resolve_left hdvd)
    have he : e ≠ 0 := by rintro rfl; simp at hdvd
    have hn : (2 : ℤ) ^ (52 + e) * d ≤ n := by exact_mod_cast hge he
    have hzd : z * d < 2 ^ (52 + e) * d := mul_lt_mul_of_pos_right hlt (by exact_mod_cast hd)
    have hbinade : (2 : ℤ) ^ (52 + e) * d = (2 ^ 52 : ℤ) * ((d * 2 ^ e : Nat) : ℤ) := by push_cast; ring
    have hcloser : |(m : ℤ) * ((d * 2 ^ e : Nat) : ℤ) - n| < |z * d - n| := by
      calc |(m : ℤ) * ((d * 2 ^ e : Nat) : ℤ) - n|
          ≤ |(2 ^ 52 : ℤ) * ((d * 2 ^ e : Nat) : ℤ) - n| := (hnear _).1
        _ = n - 2 ^ (52 + e) * d := by rw [← hbinade, abs_of_nonpos (by linarith), neg_sub]
        _ < n - z * d := by linarith
        _ ≤ |z * d - n| := by rw [abs_sub_comm]; exact le_abs_self _
    exact ⟨hcloser.le, fun htie => absurd htie hcloser.ne⟩

/-- The fields of the rounded `n / d` stay below those of `2^(k + 54)` exactly while `n / d` is below
`(2^54 − 1) · 2^k`, the midpoint between the last significand of the binade before and the carry out of it. -/
theorem magnitude_lt_iff (n d k : Nat) (hd : 0 < d) :
    excessBits (n / d) * 2 ^ 52 + significand n d < (k + 3) * 2 ^ 52 ↔ n < (2 ^ 54 - 1) * (2 ^ k * d) := by
  obtain ⟨hlt, hge⟩ := excessBits_bounds n d hd
  obtain ⟨hmax, hmin⟩ := significand_bounds n d hd
  obtain ⟨hlow, hhigh, heven⟩ := significand_error n d hd
  have hpos : 0 < 2 ^ k * d := Nat.mul_pos (Nat.pow_pos two_pos) hd
  generalize excessBits (n / d) = e at *
  generalize significand n d = m at *
  obtain he | rfl | he := lt_trichotomy e (k + 1)
  · have hle : 2 ^ (53 + e) * d ≤ 2 ^ 53 * (2 ^ k * d) := by
      rw [← mul_assoc, ← pow_add]
      exact Nat.mul_le_mul_right d (Nat.pow_le_pow_right two_pos (by omega))
    generalize 2 ^ k * d = H at *
    omega
  · have hH : d * 2 ^ (k + 1) = 2 * (2 ^ k * d) := by ring
    rw [hH] at hlow hhigh heven
    clear hlt hge hH
    generalize 2 ^ k * d = H at *
    constructor
    · intro hbits
      have hm : m ≤ 2 ^ 53 - 1 := by omega
      have hmH := Nat.mul_le_mul_right (2 * H) hm
      by_contra hn
      have hodd : m ≤ 2 ^ 53 - 2 := by have := heven (.inr (by omega)); omega
      have := Nat.mul_le_mul_right (2 * H) hodd
      omega
    · intro hn
      by_contra hbits
      have := Nat.mul_le_mul_right (2 * H) (show 2 ^ 53 ≤ m by omega)
      omega
  · have hle : 2 ^ 54 * (2 ^ k * d) ≤ 2 ^ (52 + e) * d := by
      rw [← mul_assoc, ← pow_add]
      exact Nat.mul_le_mul_right d (Nat.pow_le_pow_right two_pos (by omega))
    have := hge (by omega)
    generalize 2 ^ k * d = H at *
    omega

/-! ### The fields of a pattern -/

theorem f64Exp_eq (f : BitVec 64) : f64Exp f = f.toNat / 2 ^ 52 % 2 ^ 11 := by
  simp [f64Exp, BitVec.extractLsb'_toNat, Nat.shiftRight_eq_div_pow]

theorem f64Frac_eq (f : BitVec 64) : f64Frac f = f.toNat % 2 ^ 52 := by
  simp [f64Frac, BitVec.extractLsb'_toNat]

theorem f64Frac_lt (f : BitVec 64) : f64Frac f < 2 ^ 52 := (f.extractLsb' 0 52).isLt

/-- Exponent and fraction fields together are the number in bits 62:0. -/
theorem f64Exp_mul_add_f64Frac (f : BitVec 64) : f64Exp f * 2 ^ 52 + f64Frac f = f.toNat % 2 ^ 63 := by
  rw [f64Exp_eq, f64Frac_eq]; omega

/-- The fields `excess · 2^52 + m` hold the magnitude `m · 2^excess`, whether `m` is below `2^52` in the lowest binade,
a full significand, or the carry `2^53`. -/
theorem f64Units_of_fields {f : BitVec 64} {e m : Nat} (hf : f64Exp f * 2 ^ 52 + f64Frac f = e * 2 ^ 52 + m)
    (hmax : m ≤ 2 ^ 53) (hmin : e = 0 ∨ 2 ^ 52 ≤ m) : f64Units f = m * 2 ^ e := by
  have hfrac := f64Frac_lt f
  unfold f64Units
  obtain hsub | hcarry | hfull : (m < 2 ^ 52) ∨ m = 2 ^ 53 ∨ (2 ^ 52 ≤ m ∧ m < 2 ^ 53) := by omega
  · have he : e = 0 := by omega
    have hE : f64Exp f = 0 := by omega
    have hF : f64Frac f = m := by omega
    simp [hE, hF, he]
  · have hE : f64Exp f = e + 2 := by omega
    have hF : f64Frac f = 0 := by omega
    simp [hE, hF, hcarry, pow_succ]; ring
  · have hE : f64Exp f = e + 1 := by omega
    have hF : 2 ^ 52 + f64Frac f = m := by omega
    rw [if_neg (by omega), hE, hF, Nat.add_sub_cancel]

/-- The magnitude bits `rne64` computes, by significand and excess. -/
theorem rneMagnitude_eq (num den : Nat) :
    rneMagnitude num den = min (excessBits (num * f64One / den) * 2 ^ 52 + significand (num * f64One) den)
      (0x7FF * 2 ^ 52) := rfl

theorem rne64_toNat (neg : Bool) (num den : Nat) :
    (rne64 neg num den).toNat = (neg && decide (num ≠ 0)).toNat * 2 ^ 63 + rneMagnitude num den := by
  have hlt : rneMagnitude num den < 2 ^ 63 := by rw [rneMagnitude_eq]; omega
  rw [rne64, BitVec.toNat_append, ← Nat.shiftLeft_add_eq_or_of_lt (BitVec.isLt _), BitVec.toNat_ofBool,
    BitVec.toNat_ofNat, Nat.mod_eq_of_lt hlt, Nat.shiftLeft_eq]

theorem f64Neg_eq (f : BitVec 64) : f64Neg f = decide (2 ^ 63 ≤ f.toNat) := by
  rw [f64Neg, ← BitVec.msb_eq_getLsbD_last, BitVec.msb_eq_decide]

/-! ### Patterns as whole numbers of units -/

theorem f64One_eq : f64One = 2 ^ 1074 := by
  rw [f64One, ← pow_add, ← pow_add, ← pow_add, ← pow_add]

theorem f64One_pos : 0 < f64One := by
  rw [f64One_eq]
  positivity

theorem f64One_inv : (f64One : ℚ)⁻¹ = 2 ^ (-1074 : ℤ) := by
  rw [f64One_eq, Nat.cast_pow, Nat.cast_ofNat, zpow_neg]
  rfl

/-- The finite pattern `f` as a signed multiple of `2^(−1074)`. -/
def f64Int (f : BitVec 64) : ℤ := if f64Neg f then -(f64Units f : ℤ) else f64Units f

theorem abs_f64Int (f : BitVec 64) : |f64Int f| = f64Units f := by
  unfold f64Int; split <;> simp

/-- `val(f)` counts `f64Int f` units of `2^(−1074)`. -/
theorem f64Val_eq (f : BitVec 64) : f64Val f = (f64Int f : ℚ) / f64One := by
  have hunits : (if f64Exp f = 0 then (f64Frac f : ℚ) * 2 ^ (-1074 : ℤ)
      else ((2 : ℚ) ^ 52 + f64Frac f) * 2 ^ ((f64Exp f : ℤ) - 1075)) = (f64Units f : ℚ) / f64One := by
    rw [div_eq_mul_inv, f64One_inv, f64Units]
    split
    · rfl
    · next hE =>
      obtain ⟨k, hk⟩ := Nat.exists_eq_succ_of_ne_zero hE
      have hexp : ((f64Exp f : ℤ) - 1075) = (k : ℤ) + -1074 := by omega
      rw [hexp, hk, zpow_add₀ two_ne_zero, zpow_natCast]
      generalize (2 : ℚ) ^ (-1074 : ℤ) = unit
      rw [Nat.succ_sub_one, Nat.cast_mul, mul_assoc]
      push_cast
      rfl
  rw [f64Val, hunits, f64Int]
  split <;> simp [neg_div]

/-- A pattern is a multiple of `2^e`, or lies below the binade whose spacing is `2^e`. -/
theorem f64Int_grid (f : BitVec 64) (e : Nat) : (2 : ℤ) ^ e ∣ f64Int f ∨ |f64Int f| < 2 ^ (52 + e) := by
  have hfrac := f64Frac_lt f
  have hunits : 2 ^ e ∣ f64Units f ∨ f64Units f < 2 ^ (52 + e) := by
    by_cases hE : f64Exp f ≤ e
    · right
      unfold f64Units
      split
      · exact hfrac.trans_le (Nat.pow_le_pow_right two_pos (by omega))
      · calc (2 ^ 52 + f64Frac f) * 2 ^ (f64Exp f - 1)
            < 2 ^ 53 * 2 ^ (f64Exp f - 1) := Nat.mul_lt_mul_of_pos_right (by omega) (Nat.pow_pos two_pos)
          _ = 2 ^ (53 + (f64Exp f - 1)) := (pow_add _ _ _).symm
          _ ≤ 2 ^ (52 + e) := Nat.pow_le_pow_right two_pos (by omega)
    · left
      rw [f64Units, if_neg (by omega)]
      exact Dvd.dvd.mul_left (pow_dvd_pow 2 (by omega)) _
  rw [← dvd_abs, abs_f64Int]
  exact_mod_cast hunits

/-! ### `rne64` against R11 -/

theorem f64Limit_pos : 0 < f64Limit := by
  have h : (2 : ℚ) ^ 970 < 2 ^ 1024 := pow_lt_pow_right₀ one_lt_two (by decide)
  exact sub_pos.2 h

/-- Below the limit the magnitude is below the infinity's. -/
theorem lt_f64Limit_iff (num den : Nat) (hden : 0 < den) :
    (num : ℚ) / den < f64Limit ↔ num * f64One < (2 ^ 54 - 1) * (2 ^ 2044 * den) := by
  have hlimit : f64Limit * 2 ^ 1074 = ((2 ^ 54 - 1 : Nat) : ℚ) * 2 ^ 2044 := by
    have h1 : (2 : ℚ) ^ 1024 = 2 ^ 54 * 2 ^ 970 := by rw [← pow_add]
    have h2 : (2 : ℚ) ^ 2044 = 2 ^ 970 * 2 ^ 1074 := by rw [← pow_add]
    rw [f64Limit, h1, h2]
    generalize (2 : ℚ) ^ 970 = a
    generalize (2 : ℚ) ^ 1074 = b
    push_cast
    ring
  have hone : (0 : ℚ) < 2 ^ 1074 := pow_pos two_pos _
  have hcast : (num * f64One < (2 ^ 54 - 1) * (2 ^ 2044 * den)) ↔
      ((num : ℚ) * 2 ^ 1074 < ((2 ^ 54 - 1 : Nat) : ℚ) * (2 ^ 2044 * den)) := by
    rw [f64One_eq]
    exact_mod_cast Iff.rfl
  rw [hcast, div_lt_iff₀ (by exact_mod_cast hden), ← mul_assoc, ← hlimit, mul_right_comm,
    mul_lt_mul_iff_left₀ hone]

/-- The sign bit of `rne64`: that of a real other than 0. -/
theorem f64Neg_rne64 (neg : Bool) (num den : Nat) : f64Neg (rne64 neg num den) = (neg && decide (num ≠ 0)) := by
  have hlt : rneMagnitude num den < 2 ^ 63 := by rw [rneMagnitude_eq]; omega
  rw [f64Neg_eq, rne64_toNat]
  cases neg && decide (num ≠ 0)
  · simpa using hlt
  · simp

/-- Bits 62:0 of `rne64` are its magnitude. -/
theorem rne64_fields (neg : Bool) (num den : Nat) :
    f64Exp (rne64 neg num den) * 2 ^ 52 + f64Frac (rne64 neg num den) = rneMagnitude num den := by
  have hlt : rneMagnitude num den < 2 ^ 63 := by rw [rneMagnitude_eq]; omega
  rw [f64Exp_mul_add_f64Frac, rne64_toNat]
  omega

/-- `rne64` of 0 is +0. -/
theorem rne64_zero (neg : Bool) (den : Nat) : rne64 neg 0 den = 0#64 := by
  apply BitVec.eq_of_toNat_eq
  rw [rne64_toNat, rneMagnitude_eq]
  simp [excessBits, significand, roundHalfEven]

section
variable {num den : Nat} (hden : 0 < den)
include hden

/-- Below the limit the fields are those of the excess and the significand. -/
theorem rneMagnitude_of_lt (h : (num : ℚ) / den < f64Limit) :
    rneMagnitude num den = excessBits (num * f64One / den) * 2 ^ 52 + significand (num * f64One) den ∧
    rneMagnitude num den < 0x7FF * 2 ^ 52 := by
  have hlt := (magnitude_lt_iff (num * f64One) den 2044 hden).2 ((lt_f64Limit_iff num den hden).1 h)
  rw [rneMagnitude_eq]
  omega

/-- From the limit up the fields are the infinity's. -/
theorem rneMagnitude_of_ge (h : f64Limit ≤ (num : ℚ) / den) : rneMagnitude num den = 0x7FF * 2 ^ 52 := by
  have hge := (magnitude_lt_iff (num * f64One) den 2044 hden).not.2 ((lt_f64Limit_iff num den hden).not.1 h.not_gt)
  rw [rneMagnitude_eq]
  omega

/-- Below the limit `rne64` is finite. -/
theorem rne64_finite (neg : Bool) (h : (num : ℚ) / den < f64Limit) : f64IsFinite (rne64 neg num den) = true := by
  have hlt := (rneMagnitude_of_lt hden h).2
  have hfields := rne64_fields neg num den
  simp only [f64IsFinite, decide_eq_true_eq]
  omega

/-- Below the limit `rne64` counts the rounded units, with the sign of the real. -/
theorem f64Int_rne64 (neg : Bool) (h : (num : ℚ) / den < f64Limit) :
    f64Int (rne64 neg num den) = (if neg then -1 else 1) * (roundedUnits (num * f64One) den : ℤ) := by
  obtain ⟨hmax, hmin⟩ := significand_bounds (num * f64One) den hden
  have hunits := f64Units_of_fields ((rne64_fields neg num den).trans (rneMagnitude_of_lt hden h).1) hmax hmin
  rw [f64Int, f64Neg_rne64, hunits, roundedUnits]
  by_cases hnum : num = 0
  · have hsig : significand (0 * f64One) den = 0 := by simp [significand, roundHalfEven]
    rw [hnum, hsig]
    simp
  · cases neg <;> simp [hnum]

/-- The distance of a pattern from `± num / den`, in units of `2^(−1074)` and over `den`. -/
theorem abs_f64Val_sub (neg : Bool) (g : BitVec 64) :
    |f64Val g - (if neg then -1 else 1) * ((num : ℚ) / den)| =
      ((|(if neg then -1 else 1) * f64Int g * den - (num * f64One : Nat)| : ℤ) : ℚ) / (den * f64One) := by
  have hden' : (0 : ℚ) < den := by exact_mod_cast hden
  have hone : (0 : ℚ) < f64One := by exact_mod_cast f64One_pos
  rw [f64Val_eq, Int.cast_abs, ← abs_of_pos (mul_pos hden' hone), ← abs_div]
  cases neg
  · congr 1
    push_cast
    field_simp
  · rw [← abs_neg, if_pos rfl, if_pos rfl]
    congr 1
    push_cast
    field_simp
    ring

/-- Below the limit an even significand ends in a 0 bit. -/
theorem rne64_even (neg : Bool) (h : (num : ℚ) / den < f64Limit) (heven : significand (num * f64One) den % 2 = 0) :
    (rne64 neg num den).getLsbD 0 = false := by
  have hmag := (rneMagnitude_of_lt hden h).1
  rw [BitVec.getLsbD, Nat.testBit_zero, rne64_toNat, decide_eq_false_iff_not]
  omega

/-- Below the limit no pattern is nearer to `± num / den` than its `rne64`, whose lowest bit is 0 on a tie. -/
theorem rne64_nearest (neg : Bool) (h : (num : ℚ) / den < f64Limit) {x : ℚ}
    (hx : x = (if neg then -1 else 1) * ((num : ℚ) / den)) (g : BitVec 64) :
    |f64Val (rne64 neg num den) - x| ≤ |f64Val g - x| ∧
    (|f64Val (rne64 neg num den) - x| = |f64Val g - x| → f64Val (rne64 neg num den) ≠ f64Val g →
      (rne64 neg num den).getLsbD 0 = false) := by
  have hscale : (0 : ℚ) < den * f64One := by exact_mod_cast Nat.mul_pos hden f64One_pos
  have hsign : (if neg then -1 else 1 : ℤ) * (if neg then -1 else 1) = 1 := by cases neg <;> rfl
  have hgrid : (2 : ℤ) ^ excessBits (num * f64One / den) ∣ (if neg then -1 else 1) * f64Int g ∨
      |(if neg then -1 else 1) * f64Int g| < 2 ^ (52 + excessBits (num * f64One / den)) := by
    have := f64Int_grid g (excessBits (num * f64One / den))
    cases neg <;> simpa using this
  obtain ⟨hle, htie⟩ := roundedUnits_nearest (num * f64One) den hden _ hgrid
  rw [hx, abs_f64Val_sub hden, abs_f64Val_sub hden, div_le_div_iff_of_pos_right hscale, div_left_inj' hscale.ne',
    Int.cast_le, Int.cast_inj, f64Int_rne64 hden neg h, ← mul_assoc, hsign, one_mul]
  refine ⟨hle, fun heq hne => rne64_even hden neg h (htie heq ?_)⟩
  intro hsame
  apply hne
  rw [f64Val_eq, f64Val_eq, f64Int_rne64 hden neg h, ← hsame, ← mul_assoc, hsign, one_mul]

/-- From the limit up `rne64` is the infinity of the sign. -/
theorem rne64_of_ge (neg : Bool) (h : f64Limit ≤ (num : ℚ) / den) :
    rne64 neg num den = if neg then 0xFFF0000000000000#64 else 0x7FF0000000000000#64 := by
  have hnum : num ≠ 0 := by
    rintro rfl
    rw [Nat.cast_zero, zero_div] at h
    exact h.not_gt f64Limit_pos
  apply BitVec.eq_of_toNat_eq
  rw [rne64_toNat, rneMagnitude_of_ge hden h]
  cases neg <;> simp [hnum]

end

/-- Settles O29: nearest and even below the limit, the infinities from there up, and +0 for 0. -/
theorem roundingIsNearestEven : Obligations.RoundingIsNearestEven := by
  intro neg num den hden
  have hx : 0 ≤ (num : ℚ) / den := by positivity
  have hlimit := f64Limit_pos
  refine ⟨fun h => ?_, fun h => ?_, fun h => ?_, fun h => ?_⟩
  · have hlt : (num : ℚ) / den < f64Limit := by cases neg <;> simpa [abs_of_nonneg hx] using h
    exact ⟨rne64_finite hden neg hlt, fun g _ => rne64_nearest hden neg hlt rfl g⟩
  · cases neg with
    | false => simpa using rne64_of_ge hden false (by simpa using h)
    | true =>
      have hneg : f64Limit ≤ -((num : ℚ) / den) := by simpa using h
      linarith
  · cases neg with
    | false =>
      have hneg : (num : ℚ) / den ≤ -f64Limit := by simpa using h
      linarith
    | true => simpa using rne64_of_ge hden true (by simpa using h)
  · have hnum : num = 0 := by cases neg <;> simpa [hden.ne'] using h
    rw [hnum, rne64_zero]

end Sys2Proof.Machine
end

section
/-! SUPPORT. What one event can do to the state as a whole: the effects of a host write, how an engine step leaves a
command ended or still running, and the step of the machine when no reset is due. -/

namespace Sys2Proof.Machine

open Sys2Proof

/-! ### The host -/

/-- Everything a host write of `v` can make of the state: a constructor for each access type of R23, for the two
outcomes of a CMD write, and for a write that BUSY = 1 drops (R53, R221, R222). -/
inductive WriteEffect (v : Word) (s : State) : State → Prop
  | nothing : WriteEffect v s s
  | irqEn : WriteEffect v s { s with irqEn := v.getLsbD 0 }
  | clearBits : WriteEffect v s { s with status := writeOneToClear v s.status }
  | refused (hb : s.status.busy = true) : WriteEffect v s (refuseCmd s)
  | accepted (hb : s.status.busy = false) : WriteEffect v s (accept v s)
  | dropped (hb : s.status.busy = true) : WriteEffect v s (dropWrite s)
  | operand {cc sc va ck ad ol tl rl lc pc} (hb : s.status.busy = false) : WriteEffect v s { s with
      codecCfg := cc, scale := sc, value := va, cksCfg := ck, addr := ad, oplen := ol, txlen := tl, rxlen := rl
      linkCfg := lc, parseCfg := pc }
  | window (b : BufId) (i : Nat) (bs : List Byte) (hb : s.status.busy = false) :
      WriteEffect v s (s.setBuffer b ((s.buffer b).writeBytes i bs))

theorem guardBusy_effect {v : Word} {s t : State} (h : s.status.busy = false → WriteEffect v s t) :
    WriteEffect v s (guardBusy s t) := by
  cases hb : s.status.busy with
  | true => rw [guardBusy_busy hb]; exact .dropped hb
  | false => rw [guardBusy_idle hb]; exact h hb

theorem writeReg_effect (r : Reg) (v : Word) (s : State) : WriteEffect v s (writeReg r v s) := by
  cases r with
  | ctrl => exact .irqEn
  | status => exact .clearBits
  | cmd =>
    simp only [writeReg]
    split
    · next hb => exact .refused hb
    · next hb => exact .accepted (by simpa using hb)
  | id | fault | rawLo | rawHi | dvalLo | dvalHi | cks | retryCnt | result => exact .nothing
  | codecCfg | scale | valueLo | valueHi | cksCfg | addr | oplen | txlen | rxlen | linkCfg | parseCfg =>
    exact guardBusy_effect fun hb => .operand hb

theorem memWrite_effect {a : HostAddr} {n : BusSize} {v : Word} {s t : State} (h : memWrite a n v s = some t) :
    WriteEffect v s t := by
  obtain rfl | ⟨r, -, rfl⟩ | ⟨b, i, -, rfl⟩ := memWrite_cases h
  · exact .nothing
  · exact writeReg_effect r v s
  · exact guardBusy_effect fun hb => .window b i _ hb

/-- A host access is an effect of a write, perhaps none, and then the bus's answer. -/
theorem hostAccess_effect (acc : Access) (s : State) :
    ∃ v u e d, WriteEffect v s u ∧ hostAccess acc s = respond e d u := by
  obtain ⟨e, d, h⟩ | ⟨a, n, v, u, -, hu, h⟩ := hostAccess_cases acc s
  · exact ⟨0#32, s, e, d, .nothing, h⟩
  · exact ⟨v, u, false, 0#32, memWrite_effect hu, h⟩

/-! ### The engine -/

/-- The command has ended, and ERR says whether it recorded a cause (R223, R224). -/
def Ended (t : State) : Prop :=
  t.status.busy = false ∧ t.status.done = true ∧ (t.status.err = true ↔ t.cause ≠ .none)

/-- The command goes on: the flags its end would set are as before, and so is what only other units write. -/
def GoesOn (s t : State) : Prop :=
  t.status.busy = s.status.busy ∧ t.status.done = s.status.done ∧ t.status.err = s.status.err ∧ t.cause = s.cause ∧
    SameResults s t

theorem ended_complete (s : State) : Ended (complete s) := by simp [Ended]

theorem ended_raiseFault {c : FaultCause} (s : State) (hc : c ≠ .none) : Ended (raiseFault c s) := by
  simp [Ended, hc]

theorem ParseOutcome.ended {s t : State} (h : ParseOutcome s t) : Ended t := by
  obtain rfl | ⟨k, l, b, d, -, -, rfl⟩ | ⟨k, b, rfl⟩ := h
  · exact ended_raiseFault s (by decide)
  · exact ended_raiseFault _ (by decide)
  · exact ended_complete _

/-- Every command but RECV and QUERY ends in its one step (R172). -/
theorem exec_ended {i : Instr} {s t : State} (h : exec i s = .next t) (hr : i ≠ .recv) (hq : i ≠ .query) :
    Ended t := by
  cases i with
  | encode =>
    obtain ⟨c, hc, rfl⟩ | ⟨n, -, -, -, rfl⟩ := execEncode_cases h
    · exact ended_raiseFault s hc
    · exact ended_complete _
  | decode =>
    obtain ⟨c, hc, rfl⟩ | ⟨-, rfl⟩ := execDecode_cases h
    · exact ended_raiseFault s hc
    · exact ended_complete _
  | cksum =>
    obtain ⟨c, hc, rfl⟩ | ⟨-, -, rfl⟩ := execCksum_cases h
    · exact ended_raiseFault s hc
    · exact ended_complete _
  | buildLoad =>
    obtain ⟨c, hc, rfl⟩ | ⟨-, -, -, rfl⟩ := execBuildLoad_cases h
    · exact ended_raiseFault s hc
    · exact ended_complete _
  | buildMeter =>
    obtain ⟨c, hc, rfl⟩ | ⟨-, -, -, rfl⟩ := execBuildMeter_cases h
    · exact ended_raiseFault s hc
    · exact ended_complete _
  | send =>
    obtain rfl | ⟨-, rfl⟩ := execSend_cases h
    · exact ended_raiseFault s (by decide)
    · exact ended_complete _
  | recv => exact absurd rfl hr
  | query => exact absurd rfl hq
  | parseLoad => exact (execParseLoad_cases h).ended
  | parseMeter => exact (execParseMeter_cases h).ended

theorem recvStart_goesOn (s : State) : GoesOn s (recvStart s) := by
  simp [GoesOn, SameResults, recvStart]

theorem waitStep_endedOrGoesOn {s t : State} (h : waitStep s = .next t) : Ended t ∨ GoesOn s t := by
  obtain ⟨-, rfl⟩ | ⟨-, -, rfl⟩ | ⟨b, bs, -, -, -, rfl⟩ | ⟨b, bs, -, -, -, rfl⟩ := waitStep_cases h
  · exact .inl (ended_raiseFault _ (by decide))
  · exact .inr (by simp [GoesOn, SameResults])
  · exact .inr (by simp [GoesOn, SameResults, storeReceived])
  · exact .inl (ended_raiseFault _ (by decide))

theorem drainStep_endedOrGoesOn {s t : State} (h : drainStep s = .next t) : Ended t ∨ GoesOn s t := by
  obtain ⟨-, rfl⟩ | ⟨b, bs, -, -, rfl⟩ | ⟨b, bs, -, -, rfl⟩ := drainStep_cases h
  · exact .inl (ended_complete _)
  · exact .inr (by simp [GoesOn, SameResults, storeReceived])
  · exact .inl (ended_raiseFault _ (by decide))

theorem exec_endedOrGoesOn {i : Instr} {s t : State} (h : exec i s = .next t) : Ended t ∨ GoesOn s t := by
  by_cases hr : i = .recv
  · subst hr
    obtain ⟨-, rfl⟩ | ⟨-, hw⟩ | ⟨-, hd⟩ := execRecv_cases h
    · exact .inr (recvStart_goesOn s)
    · exact waitStep_endedOrGoesOn hw
    · exact drainStep_endedOrGoesOn hd
  by_cases hq : i = .query
  · subst hq
    obtain ⟨-, rfl⟩ | ⟨-, -, rfl⟩ | ⟨-, rfl⟩ | ⟨-, hw⟩ | ⟨-, hd⟩ := execQuery_cases h
    · exact .inl (ended_raiseFault s (by decide))
    · exact .inr (by simp [GoesOn, SameResults, transmit])
    · exact .inr (recvStart_goesOn s)
    · exact waitStep_endedOrGoesOn hw
    · exact drainStep_endedOrGoesOn hd
  exact .inl (exec_ended h hr hq)

/-- An engine step ends the command or leaves it running. -/
theorem engineStep_endedOrGoesOn {s t : State} (h : engineStep s = .next t) : Ended t ∨ GoesOn s t := by
  obtain ⟨-, i, -, hx⟩ | ⟨-, -, rfl⟩ | ⟨-, rfl⟩ | ⟨-, hw⟩ | ⟨-, hd⟩ := engineStep_cases h
  · exact exec_endedOrGoesOn hx
  · exact .inl (ended_raiseFault s (by decide))
  · exact .inr (recvStart_goesOn s)
  · exact waitStep_endedOrGoesOn hw
  · exact drainStep_endedOrGoesOn hd

/-- No engine step changes what only the host writes (R12, R53). -/
theorem engineStep_sameHostState {s t : State} (h : engineStep s = .next t) : SameHostState s t := by
  obtain ⟨-, i, -, hx⟩ | ⟨-, -, rfl⟩ | ⟨-, rfl⟩ | ⟨-, hw⟩ | ⟨-, hd⟩ := engineStep_cases h
  · exact (exec_frame i hx).1
  · simp [SameHostState]
  · exact (recvStart_keeps s).1
  · exact (waitStep_keeps hw).1
  · exact (drainStep_keeps hd).1

/-! ### The machine -/

/-- Everything a step can do when no reset is due. -/
theorem step_effect {s t : State} (hno : NoReset s) (h : step s = .next t) :
    (∃ v u e d, WriteEffect v (popAgenda s) u ∧ t = respond e d u) ∨ t = clockTick (popAgenda s) ∨
    t = popAgenda s ∨ (EngineNext s ∧ s.status.busy = true ∧ engineStep (popAgenda s) = .next t) := by
  obtain ⟨acc, -, rfl⟩ | ⟨-, rfl⟩ | ⟨hr, -⟩ | ⟨he, ht⟩ := step_cases h
  · exact .inl (hostAccess_effect acc (popAgenda s))
  · exact .inr (.inl rfl)
  · exact absurd hr hno
  · obtain ⟨-, rfl⟩ | ⟨hb, hs⟩ := engineTurn_cases ht
    · exact .inr (.inr (.inl rfl))
    · exact .inr (.inr (.inr ⟨he, hb, hs⟩))

end Sys2Proof.Machine
end

section
/-! SUPPORT. The invariant of the FPE: the part that speaks of data alone, the phase of a running command, and the
obligations that reset satisfies the invariant and every step keeps it. -/

namespace Sys2Proof.Machine

open Sys2Proof

/-! ### The parts of the invariant -/

/-- The part of `StateInv` that neither STATUS nor the phase enters. -/
structure DataInv (s : State) : Prop where
  stage_wf : s.stage.wf = true
  txbuf_wf : s.txbuf.wf = true
  rxbuf_wf : s.rxbuf.wf = true
  op_eq : s.op = s.cmd.extractLsb' 0 8
  detail_le : s.result.detail.toNat ≤ 6
  local_iff : s.result.isLocal = true ↔ s.result.detail ≠ 0#4

theorem StateInv.data {s : State} (h : StateInv s) : DataInv s :=
  ⟨h.stage_wf, h.txbuf_wf, h.rxbuf_wf, h.op_eq, h.detail_le, h.local_iff⟩

/-- While the FPE is idle the invariant is its data part and what ERR says of the cause. -/
theorem DataInv.idle {s : State} (h : DataInv s) (hb : s.status.busy = false)
    (he : s.status.err = true → s.cause ≠ .none) : StateInv s :=
  { h with
    busy_clean := fun hb' => by simp [hb] at hb'
    err_cause := he
    phase := fun hb' => by simp [hb] at hb' }

theorem DataInv.running {s : State} (h : DataInv s)
    (hc : s.status.done = false ∧ s.status.err = false ∧ s.cause = .none) (hp : PhaseInv s) : StateInv s :=
  have ⟨_, herr, _⟩ := hc
  { h with
    busy_clean := fun _ => hc
    err_cause := fun he => by simp [herr] at he
    phase := fun _ => hp }

theorem phaseInv_of_start {s : State} (h : s.ph = .start) : PhaseInv s := by
  simp [PhaseInv, h]

theorem phaseInv_of_recvStart {s : State} (h : s.ph = .recvStart) :
    PhaseInv s ↔ decodeWord s.cmd = .ok .query ∧ s.status.state = .sent := by
  simp [PhaseInv, h]

theorem phaseInv_of_wait {s : State} (h : s.ph = .wait) :
    PhaseInv s ↔ (decodeWord s.cmd = .ok .recv ∨ decodeWord s.cmd = .ok .query) ∧ s.status.state = .waiting ∧
      s.rxlen = 0#9 ∧ s.retryCnt.toNat ≤ s.maxRetries := by
  simp [PhaseInv, h]

theorem phaseInv_of_drain {s : State} (h : s.ph = .drain) :
    PhaseInv s ↔ (decodeWord s.cmd = .ok .recv ∨ decodeWord s.cmd = .ok .query) ∧ s.status.state = .draining ∧
      1 ≤ s.rxlen.toNat ∧ s.rxlen.toNat ≤ 256 ∧ s.retryCnt.toNat < s.maxRetries := by
  simp [PhaseInv, h]

/-! ### Reset, the host and the clock -/

/-- Settles O19: the table of R54, field by field. -/
theorem resetSatisfiesInvariant : Obligations.ResetSatisfiesInvariant where
  stage_wf := rfl
  txbuf_wf := rfl
  rxbuf_wf := rfl
  op_eq := rfl
  busy_clean := nofun
  err_cause := nofun
  phase := nofun
  detail_le := Nat.zero_le 6
  local_iff := by decide

/-- The outside world and the poll-delay timer do not enter the invariant. -/
theorem StateInv.withOutside {s : State} (h : StateInv s) (e : Environment) (n : Nat) :
    StateInv { s with env := e, timer := n } := { h with }

theorem DataInv.setBuffer {s : State} (h : DataInv s) (b : BufId) {m : Memory} (hm : m.wf = true) :
    DataInv (s.setBuffer b m) := by
  cases b with
  | stage => exact { h with stage_wf := hm }
  | txbuf => exact { h with txbuf_wf := hm }
  | rxbuf => exact { h with rxbuf_wf := hm }

theorem DataInv.buffer_wf {s : State} (h : DataInv s) (b : BufId) : (s.buffer b).wf = true := by
  cases b with
  | stage => exact h.stage_wf
  | txbuf => exact h.txbuf_wf
  | rxbuf => exact h.rxbuf_wf

theorem WriteEffect.keeps_inv {v : Word} {s u : State} (hu : WriteEffect v s u) (h : StateInv s) : StateInv u := by
  cases hu with
  | nothing => exact h
  | irqEn => exact { h with }
  | clearBits =>
    exact { h with
      busy_clean := fun hb => by obtain ⟨hd, he, hc⟩ := h.busy_clean hb; simp [hd, he, hc]
      err_cause := fun he => h.err_cause (by simp at he; exact he.1) }
  | refused _ => exact { h with }
  | accepted _ =>
    exact DataInv.running { h.data with op_eq := rfl } ⟨rfl, rfl, rfl⟩ (phaseInv_of_start rfl)
  | dropped _ => exact { h with }
  | operand hb => exact DataInv.idle { h.data with } hb h.err_cause
  | window b i bs hb =>
    refine (h.data.setBuffer b (Memory.writeBytes_wf bs _ i (h.data.buffer_wf b))).idle ?_ ?_
    · simpa using hb
    · simpa using h.err_cause

theorem hostAccess_keeps_inv (acc : Access) {s : State} (h : StateInv s) : StateInv (hostAccess acc s) := by
  obtain ⟨v, u, e, d, hu, heq⟩ := hostAccess_effect acc s
  rw [heq]
  exact (hu.keeps_inv h).withOutside _ u.timer

theorem resetInput_inv (s : State) : StateInv (resetInput s) :=
  resetSatisfiesInvariant.withOutside s.env 0

/-! ### The data an engine step writes -/

theorem DataInv.complete {s : State} (h : DataInv s) : DataInv (complete s) := { h with }

theorem DataInv.raiseFault {s : State} (h : DataInv s) (c : FaultCause) : DataInv (raiseFault c s) := { h with }

theorem DataInv.setResult {s : State} (h : DataInv s) (k : Kind) (b : Byte) {l : Bool} {d : BitVec 4}
    (hl : l = true ↔ d ≠ 0#4) (hd : d.toNat ≤ 6) : DataInv (setResult k l b d s) :=
  { h with detail_le := hd, local_iff := hl }

theorem DataInv.storeReceived {s : State} (h : DataInv s) (bs : List Byte) : DataInv (storeReceived bs s) :=
  { h with rxbuf_wf := storeReceived_rxbuf_wf bs s h.rxbuf_wf }

theorem DataInv.setLink {s : State} (h : DataInv s) (st : LinkState) : DataInv (setLink st s) := { h with }

theorem DataInv.polled {s : State} (h : DataInv s) : DataInv (afterPoll (awaitPoll s)) := { h with }

theorem ParseOutcome.keeps_data {s t : State} (hp : ParseOutcome s t) (h : DataInv s) : DataInv t := by
  obtain rfl | ⟨k, l, b, d, hl, hd, rfl⟩ | ⟨k, b, rfl⟩ := hp
  · exact h.raiseFault _
  · exact (h.setResult k b hl hd).raiseFault _
  · exact (h.setResult k b (by decide) (by decide)).complete

theorem recvStart_keeps_data {s : State} (h : DataInv s) : DataInv (recvStart s) := { h with }

theorem waitStep_keeps_data {s t : State} (h : DataInv s) (ht : waitStep s = .next t) : DataInv t := by
  obtain ⟨-, rfl⟩ | ⟨-, -, rfl⟩ | ⟨b, bs, -, -, -, rfl⟩ | ⟨b, bs, -, -, -, rfl⟩ := waitStep_cases ht
  · exact { h with }
  · exact { h with }
  · exact { (h.polled.storeReceived (b :: bs)).setLink .draining with }
  · exact ((h.polled.storeReceived (b :: bs)).setLink .overrun).raiseFault _

theorem drainStep_keeps_data {s t : State} (h : DataInv s) (ht : drainStep s = .next t) : DataInv t := by
  obtain ⟨-, rfl⟩ | ⟨b, bs, -, -, rfl⟩ | ⟨b, bs, -, -, rfl⟩ := drainStep_cases ht
  · exact (h.polled.setLink .received).complete
  · exact h.polled.storeReceived (b :: bs)
  · exact ((h.polled.storeReceived (b :: bs)).setLink .overrun).raiseFault _

theorem exec_keeps_data (i : Instr) {s t : State} (h : DataInv s) (hx : exec i s = .next t) : DataInv t := by
  cases i with
  | encode =>
    obtain ⟨c, -, rfl⟩ | ⟨n, -, -, -, rfl⟩ := execEncode_cases hx
    · exact h.raiseFault c
    · exact DataInv.complete { h with stage_wf := Memory.writeBytes_wf _ _ _ h.stage_wf }
  | decode =>
    obtain ⟨c, -, rfl⟩ | ⟨-, rfl⟩ := execDecode_cases hx
    · exact h.raiseFault c
    · exact DataInv.complete { h with }
  | cksum =>
    obtain ⟨c, -, rfl⟩ | ⟨-, -, rfl⟩ := execCksum_cases hx
    · exact h.raiseFault c
    · exact DataInv.complete { h with }
  | buildLoad =>
    obtain ⟨c, -, rfl⟩ | ⟨-, -, -, rfl⟩ := execBuildLoad_cases hx
    · exact h.raiseFault c
    · exact DataInv.complete { h with txbuf_wf := loadFrame_wf _ _ _ h.txbuf_wf }
  | buildMeter =>
    obtain ⟨c, -, rfl⟩ | ⟨-, -, -, rfl⟩ := execBuildMeter_cases hx
    · exact h.raiseFault c
    · exact DataInv.complete { h with txbuf_wf := meterFrame_wf _ _ _ _ h.txbuf_wf }
  | send =>
    obtain rfl | ⟨-, rfl⟩ := execSend_cases hx
    · exact h.raiseFault _
    · exact DataInv.complete { h with }
  | recv =>
    obtain ⟨-, rfl⟩ | ⟨-, hw⟩ | ⟨-, hd⟩ := execRecv_cases hx
    · exact recvStart_keeps_data h
    · exact waitStep_keeps_data h hw
    · exact drainStep_keeps_data h hd
  | query =>
    obtain ⟨-, rfl⟩ | ⟨-, -, rfl⟩ | ⟨-, rfl⟩ | ⟨-, hw⟩ | ⟨-, hd⟩ := execQuery_cases hx
    · exact h.raiseFault _
    · exact { h with }
    · exact recvStart_keeps_data h
    · exact waitStep_keeps_data h hw
    · exact drainStep_keeps_data h hd
  | parseLoad => exact (execParseLoad_cases hx).keeps_data h
  | parseMeter => exact (execParseMeter_cases hx).keeps_data h

theorem engineStep_keeps_data {s t : State} (h : DataInv s) (ht : engineStep s = .next t) : DataInv t := by
  obtain ⟨-, i, -, hx⟩ | ⟨-, -, rfl⟩ | ⟨-, rfl⟩ | ⟨-, hw⟩ | ⟨-, hd⟩ := engineStep_cases ht
  · exact exec_keeps_data i h hx
  · exact h.raiseFault _
  · exact recvStart_keeps_data h
  · exact waitStep_keeps_data h hw
  · exact drainStep_keeps_data h hd

/-! ### The phase of a command that is still running -/

theorem fitCount_eq_length {bs : List Byte} {s : State} (h : ¬ fitCount bs s < bs.length) :
    fitCount bs s = bs.length ∧ bs.length ≤ 256 - s.rxlen.toNat := by
  have hfit : fitCount bs s = min bs.length (256 - s.rxlen.toNat) := rfl
  omega

/-- Bytes that all fit are all counted (R179). -/
theorem storeReceived_rxlen_toNat {b : Byte} {bs : List Byte} {s : State}
    (h : ¬ fitCount (b :: bs) s < (b :: bs).length) :
    (storeReceived (b :: bs) s).rxlen.toNat = s.rxlen.toNat + (b :: bs).length ∧
      s.rxlen.toNat + (b :: bs).length ≤ 256 := by
  obtain ⟨hfit, hle⟩ := fitCount_eq_length h
  have hpos : (b :: bs).length = bs.length + 1 := rfl
  have hrx : (storeReceived (b :: bs) s).rxlen = BitVec.ofNat 9 (s.rxlen.toNat + fitCount (b :: bs) s) := rfl
  rw [hrx, BitVec.toNat_ofNat, hfit]
  omega

/-- A receive phase starts with RXLEN and RETRY_CNT at 0 (R174). -/
theorem recvStart_phase {s : State} (hc : decodeWord s.cmd = .ok .recv ∨ decodeWord s.cmd = .ok .query) :
    PhaseInv (recvStart s) :=
  (phaseInv_of_wait rfl).2 ⟨hc, rfl, rfl, Nat.zero_le _⟩

theorem waitStep_phase {s t : State} (hp : PhaseInv s) (hw : s.ph = .wait) (ht : waitStep s = .next t)
    (hb : t.status.busy = true) : PhaseInv t := by
  obtain ⟨hc, hst, hrx, -⟩ := (phaseInv_of_wait hw).1 hp
  obtain ⟨-, rfl⟩ | ⟨hlt, -, rfl⟩ | ⟨b, bs, hlt, -, hfit, rfl⟩ | ⟨b, bs, -, -, -, rfl⟩ := waitStep_cases ht
  · simp at hb
  · have hmax : s.maxRetries < 2 ^ 16 := BitVec.isLt _
    have hcnt : (s.retryCnt + 1#16).toNat ≤ s.maxRetries := by
      rw [BitVec.toNat_add, BitVec.toNat_ofNat]
      omega
    exact (phaseInv_of_wait (by simpa using hw)).2 ⟨hc, hst, hrx, hcnt⟩
  · obtain ⟨hlen, hle⟩ := storeReceived_rxlen_toNat (s := afterPoll (awaitPoll s)) hfit
    refine (phaseInv_of_drain rfl).2 ⟨hc, rfl, ?_, ?_, hlt⟩
    · exact hlen.symm ▸ Nat.le_add_left 1 _
    · exact hlen.symm ▸ hle
  · simp at hb

theorem drainStep_phase {s t : State} (hp : PhaseInv s) (hd : s.ph = .drain) (ht : drainStep s = .next t)
    (hb : t.status.busy = true) : PhaseInv t := by
  obtain ⟨hc, hst, -, -, hlt⟩ := (phaseInv_of_drain hd).1 hp
  obtain ⟨-, rfl⟩ | ⟨b, bs, -, hfit, rfl⟩ | ⟨b, bs, -, -, rfl⟩ := drainStep_cases ht
  · simp at hb
  · obtain ⟨hlen, hle⟩ := storeReceived_rxlen_toNat (s := afterPoll (awaitPoll s)) hfit
    refine (phaseInv_of_drain (by simpa [storeReceived] using hd)).2 ⟨hc, hst, ?_, ?_, hlt⟩
    · exact hlen.symm ▸ Nat.le_add_left 1 _
    · exact hlen.symm ▸ hle
  · simp at hb

/-- Of the commands' first steps only RECV's and QUERY's leave the command running. -/
theorem exec_phase {i : Instr} {s t : State} (hi : decodeWord s.cmd = .ok i) (hs : s.ph = .start)
    (ht : exec i s = .next t) (hb : t.status.busy = true) : PhaseInv t := by
  by_cases hr : i = .recv
  · subst hr
    obtain ⟨-, rfl⟩ | ⟨hw, -⟩ | ⟨hd, -⟩ := execRecv_cases ht
    · exact recvStart_phase (.inl hi)
    · simp [hs] at hw
    · simp [hs] at hd
  by_cases hq : i = .query
  · subst hq
    obtain ⟨-, rfl⟩ | ⟨-, -, rfl⟩ | ⟨hw, -⟩ | ⟨hw, -⟩ | ⟨hw, -⟩ := execQuery_cases ht
    · simp at hb
    · exact (phaseInv_of_recvStart rfl).2 ⟨hi, rfl⟩
    all_goals simp [hs] at hw
  · simp [(exec_ended ht hr hq).1] at hb

theorem engineStep_phase {s t : State} (hp : PhaseInv s) (ht : engineStep s = .next t)
    (hb : t.status.busy = true) : PhaseInv t := by
  obtain ⟨hs, i, hi, hx⟩ | ⟨-, -, rfl⟩ | ⟨hs, rfl⟩ | ⟨hw, hx⟩ | ⟨hd, hx⟩ := engineStep_cases ht
  · exact exec_phase hi hs hx hb
  · simp at hb
  · exact recvStart_phase (.inr ((phaseInv_of_recvStart hs).1 hp).1)
  · exact waitStep_phase hp hw hx hb
  · exact drainStep_phase hp hd hx hb

/-! ### Every step -/

/-- An engine step ends the command, and then the phase no longer matters, or leaves it running in a legal phase. -/
theorem engineStep_keeps_inv {s t : State} (h : StateInv s) (hb : s.status.busy = true)
    (ht : engineStep s = .next t) : StateInv t := by
  have hdata := engineStep_keeps_data h.data ht
  obtain ⟨hidle, -, herr⟩ | ⟨hbusy, hdone, herr, hcause, -⟩ := engineStep_endedOrGoesOn ht
  · exact hdata.idle hidle herr.1
  · have hclean : t.status.done = false ∧ t.status.err = false ∧ t.cause = .none := by
      rw [hdone, herr, hcause]; exact h.busy_clean hb
    exact hdata.running hclean (engineStep_phase (h.phase hb) ht (hbusy.trans hb))

/-- Settles O20, by the kinds of event a step can be. -/
theorem stepKeepsInvariant : Obligations.StepKeepsInvariant := by
  intro s t h ht
  have hpop : StateInv (popAgenda s) := h.withOutside _ s.timer
  obtain ⟨acc, -, rfl⟩ | ⟨-, rfl⟩ | ⟨-, rfl⟩ | ⟨-, hturn⟩ := step_cases ht
  · exact hostAccess_keeps_inv acc hpop
  · exact hpop.withOutside _ _
  · exact resetInput_inv _
  · obtain ⟨-, rfl⟩ | ⟨hb, hs⟩ := engineTurn_cases hturn
    · exact hpop
    · exact engineStep_keeps_inv hpop hb hs

end Sys2Proof.Machine
end

section
/-! SUPPORT. Rules of the whole machine: what stays fixed while a command runs, who writes RESULT and STATUS.STATE, and
how BUSY falls. -/

namespace Sys2Proof.Machine

open Sys2Proof

/-! ### What a host write leaves alone -/

theorem WriteEffect.result_eq {v : Word} {s u : State} (h : WriteEffect v s u) : u.result = s.result := by
  cases h with
  | window b i bs _ => exact setBuffer_result s b _
  | _ => rfl

theorem WriteEffect.linkState_eq {v : Word} {s u : State} (h : WriteEffect v s u) :
    u.status.state = s.status.state := by
  cases h with
  | window b i bs _ => rw [setBuffer_status]
  | _ => rfl

/-- The operands of the running command, the command itself and the baud rate are equal in both states (R53, R57). -/
def SameOperands (s t : State) : Prop :=
  t.codecCfg = s.codecCfg ∧ t.scale = s.scale ∧ t.value = s.value ∧ t.cksCfg = s.cksCfg ∧ t.addr = s.addr ∧
  t.oplen = s.oplen ∧ t.linkCfg = s.linkCfg ∧ t.parseCfg = s.parseCfg ∧ t.cmd = s.cmd ∧ t.op = s.op ∧
  t.baudSel = s.baudSel

/-- STAGE, TXBUF and TXLEN are equal in both states. -/
def SameSources (s t : State) : Prop := t.stage = s.stage ∧ t.txbuf = s.txbuf ∧ t.txlen = s.txlen

theorem sameOperands_refl (s : State) : SameOperands s s := by simp [SameOperands]

theorem SameHostState.sameOperands {s t : State} (h : SameHostState s t) : SameOperands s t := by
  obtain ⟨-, hcmd, hop, hcodec, hscale, hvalue, hcks, haddr, hoplen, hlink, hparse, -⟩ := h
  have hbaud : t.baudSel = s.baudSel := by rw [State.baudSel, hlink, State.baudSel]
  exact ⟨hcodec, hscale, hvalue, hcks, haddr, hoplen, hlink, hparse, hcmd, hop, hbaud⟩

/-- While BUSY = 1 a host write leaves the command running on the same operands (R53). -/
theorem WriteEffect.busy_keeps {v : Word} {s u : State} (h : WriteEffect v s u) (hb : s.status.busy = true) :
    u.status.busy = true ∧ SameOperands s u ∧ SameSources s u := by
  cases h with
  | nothing | irqEn | clearBits | refused _ | dropped _ => exact ⟨hb, sameOperands_refl s, rfl, rfl, rfl⟩
  | accepted hidle | operand hidle | window _ _ _ hidle => simp [hb] at hidle

/-! ### The obligations -/

/-- Settles O21: a busy host write keeps the operands, and an engine step writes STAGE, TXBUF and TXLEN only where it
ends the command. -/
theorem operandsFixedWhileBusy : Obligations.OperandsFixedWhileBusy := by
  intro s t hb hno ht
  have hkeep : SameOperands s t ∧ (t.status.busy = true → SameSources s t) := by
    obtain ⟨v, u, e, d, hu, rfl⟩ | rfl | rfl | ⟨-, -, hs⟩ := step_effect hno ht
    · obtain ⟨-, hops, hsrc⟩ := hu.busy_keeps hb
      exact ⟨hops, fun _ => hsrc⟩
    · exact ⟨sameOperands_refl s, fun _ => ⟨rfl, rfl, rfl⟩⟩
    · exact ⟨sameOperands_refl s, fun _ => ⟨rfl, rfl, rfl⟩⟩
    · refine ⟨(engineStep_sameHostState hs).sameOperands, fun hbt => ?_⟩
      obtain ⟨hidle, -⟩ | ⟨-, -, -, -, hstage, -, -, -, htxbuf, htxlen, -⟩ := engineStep_endedOrGoesOn hs
      · simp [hidle] at hbt
      · exact ⟨hstage, htxbuf, htxlen⟩
  obtain ⟨⟨hcodec, hscale, hvalue, hcks, haddr, hoplen, hlink, hparse, hcmd, hop, hbaud⟩, hsrc⟩ := hkeep
  exact ⟨hcodec, hscale, hvalue, hcks, haddr, hoplen, hlink, hparse, hcmd, hop, hbaud, hsrc⟩

/-- An engine step that is not a parser's keeps RESULT. -/
theorem engineStep_result {s t : State} (h : engineStep s = .next t) (hne : t.result ≠ s.result) :
    decodeWord s.cmd = .ok .parseLoad ∨ decodeWord s.cmd = .ok .parseMeter := by
  obtain ⟨-, i, hi, hx⟩ | ⟨-, -, rfl⟩ | ⟨-, rfl⟩ | ⟨-, hw⟩ | ⟨-, hd⟩ := engineStep_cases h
  · obtain ⟨-, -, -, -, -, -, hresult, -⟩ := exec_frame i hx
    by_cases hl : i = .parseLoad
    · exact .inl (hl ▸ hi)
    by_cases hm : i = .parseMeter
    · exact .inr (hm ▸ hi)
    exact absurd (hresult hl hm) hne
  · exact absurd rfl hne
  · exact absurd rfl hne
  · obtain ⟨-, -, -, -, -, -, -, hresult⟩ := waitStep_keeps hw
    exact absurd hresult hne
  · obtain ⟨-, -, -, -, -, -, -, hresult⟩ := drainStep_keeps hd
    exact absurd hresult hne

/-- Settles O22: host writes and ticks keep RESULT, and of the engine's steps all but the parsers' do. -/
theorem onlyParsersWriteResult : Obligations.OnlyParsersWriteResult := by
  intro s t hno ht hne
  obtain ⟨v, u, e, d, hu, rfl⟩ | rfl | rfl | ⟨he, hb, hs⟩ := step_effect hno ht
  · exact absurd hu.result_eq hne
  · exact absurd rfl hne
  · exact absurd rfl hne
  · exact ⟨hb, he, engineStep_result (s := popAgenda s) hs hne⟩

/-- Settles O25: the host cannot end a running command, and an engine step that does not end it keeps BUSY. -/
theorem busyFallsOnlyAtCommandEnd : Obligations.BusyFallsOnlyAtCommandEnd := by
  intro s t hno hb ht hidle
  have hrun : t.status.busy ≠ true := by simp [hidle]
  obtain ⟨v, u, e, d, hu, rfl⟩ | rfl | rfl | ⟨he, -, hs⟩ := step_effect hno ht
  · exact absurd (hu.busy_keeps hb).1 hrun
  · exact absurd hb hrun
  · exact absurd hb hrun
  · obtain ⟨-, hdone, herr⟩ | ⟨hbusy, -⟩ := engineStep_endedOrGoesOn hs
    · exact ⟨he, hdone, herr⟩
    · exact absurd (hbusy.trans hb) hrun

/-! ### The transitions of STATUS.STATE -/

/-- The rows of R171: which step of which command takes STATE from its value in `s` to its value in `t`. -/
def LinkRow (s t : State) : Prop :=
  (t.status.state = .sent ∧ s.ph = .start ∧ (decodeWord s.cmd = .ok .send ∨ decodeWord s.cmd = .ok .query)) ∨
  (t.status.state = .waiting ∧ ((s.ph = .start ∧ decodeWord s.cmd = .ok .recv) ∨
    (s.ph = .recvStart ∧ decodeWord s.cmd = .ok .query))) ∨
  ((decodeWord s.cmd = .ok .recv ∨ decodeWord s.cmd = .ok .query) ∧
    ((s.ph = .wait ∧ (s.status.state, t.status.state) ∈
        [(LinkState.waiting, LinkState.timeout), (.waiting, .draining), (.waiting, .overrun)]) ∨
     (s.ph = .drain ∧ (s.status.state, t.status.state) ∈
        [(LinkState.draining, LinkState.received), (.draining, .overrun)])))

theorem waitStep_linkRow {s t : State} (hp : PhaseInv s) (hw : s.ph = .wait) (h : waitStep s = .next t)
    (hne : t.status.state ≠ s.status.state) : LinkRow s t := by
  obtain ⟨hc, hst, -, -⟩ := (phaseInv_of_wait hw).1 hp
  refine .inr (.inr ⟨hc, .inl ⟨hw, ?_⟩⟩)
  obtain ⟨-, rfl⟩ | ⟨-, -, rfl⟩ | ⟨b, bs, -, -, -, rfl⟩ | ⟨b, bs, -, -, -, rfl⟩ := waitStep_cases h
  · simp [hst]
  · exact absurd rfl hne
  · simp [hst]
  · simp [hst]

theorem drainStep_linkRow {s t : State} (hp : PhaseInv s) (hd : s.ph = .drain) (h : drainStep s = .next t)
    (hne : t.status.state ≠ s.status.state) : LinkRow s t := by
  obtain ⟨hc, hst, -⟩ := (phaseInv_of_drain hd).1 hp
  refine .inr (.inr ⟨hc, .inr ⟨hd, ?_⟩⟩)
  obtain ⟨-, rfl⟩ | ⟨b, bs, -, -, rfl⟩ | ⟨b, bs, -, -, rfl⟩ := drainStep_cases h
  · simp [hst]
  · exact absurd rfl hne
  · simp [hst]

/-- A command's first step changes STATE only for SEND, QUERY and RECV. -/
theorem exec_linkRow {i : Instr} {s t : State} (hi : decodeWord s.cmd = .ok i) (hs : s.ph = .start)
    (h : exec i s = .next t) (hne : t.status.state ≠ s.status.state) : LinkRow s t := by
  by_cases hsend : i = .send
  · subst hsend
    obtain rfl | ⟨-, rfl⟩ := execSend_cases h
    · exact absurd rfl hne
    · exact .inl ⟨rfl, hs, .inl hi⟩
  by_cases hrecv : i = .recv
  · subst hrecv
    obtain ⟨-, rfl⟩ | ⟨hw, -⟩ | ⟨hw, -⟩ := execRecv_cases h
    · exact .inr (.inl ⟨rfl, .inl ⟨hs, hi⟩⟩)
    all_goals simp [hs] at hw
  by_cases hquery : i = .query
  · subst hquery
    obtain ⟨-, rfl⟩ | ⟨-, -, rfl⟩ | ⟨hw, -⟩ | ⟨hw, -⟩ | ⟨hw, -⟩ := execQuery_cases h
    · exact absurd rfl hne
    · exact .inl ⟨rfl, hs, .inr hi⟩
    all_goals simp [hs] at hw
  obtain ⟨-, -, -, -, -, -, -, hlink, -⟩ := exec_frame i h
  exact absurd (hlink hsend hrecv hquery).1 hne

theorem engineStep_linkRow {s t : State} (hp : PhaseInv s) (h : engineStep s = .next t)
    (hne : t.status.state ≠ s.status.state) : LinkRow s t := by
  obtain ⟨hs, i, hi, hx⟩ | ⟨-, -, rfl⟩ | ⟨hs, rfl⟩ | ⟨hw, hx⟩ | ⟨hd, hx⟩ := engineStep_cases h
  · exact exec_linkRow hi hs hx hne
  · exact absurd rfl hne
  · exact .inr (.inl ⟨rfl, .inr ⟨hs, ((phaseInv_of_recvStart hs).1 hp).1⟩⟩)
  · exact waitStep_linkRow hp hw hx hne
  · exact drainStep_linkRow hp hd hx hne

/-- Settles O23: host writes and ticks keep STATE, and the invariant names the command and STATE of each phase. -/
theorem linkStateTransitions : Obligations.LinkStateTransitions := by
  intro s t hinv hno ht hne
  obtain ⟨v, u, e, d, hu, rfl⟩ | rfl | rfl | ⟨he, hb, hs⟩ := step_effect hno ht
  · exact absurd hu.linkState_eq hne
  · exact absurd rfl hne
  · exact absurd rfl hne
  · exact ⟨hb, he, engineStep_linkRow (s := popAgenda s) (hinv.phase hb) hs hne⟩

end Sys2Proof.Machine
end

section
/-! SUPPORT. The registers as the host reads and writes them: what an offset reaches, the bits a register holds, and the
obligations on register reads and writes. -/

namespace Sys2Proof.Machine

open Sys2Proof

/-! ### The address map -/

/-- The 4-byte access at a register's offset reaches that register (R71). -/
theorem busTarget_regOffset (r : Reg) : busTarget (regOffset r) .word = some (.csr r) := by
  cases r <;> rfl

theorem memRead_regOffset (r : Reg) (s : State) : memRead (regOffset r) .word s = some (readReg r s) := by
  simp [memRead, busTarget_regOffset]

theorem memWrite_regOffset (r : Reg) (v : Word) (s : State) :
    memWrite (regOffset r) .word v s = some (writeReg r v s) := by
  simp [memWrite, busTarget_regOffset]

theorem regOffset_le (r : Reg) : (regOffset r).toNat ≤ 0x058 := by
  cases r <;> decide

/-- Above the last register the CSR range is reserved (R24). -/
theorem busTarget_reserved {a : HostAddr} (hlo : 0x05C ≤ a.toNat) (hhi : a.toNat < 0x100) (ha : a.toNat % 4 = 0) :
    busTarget a .word = some .reserved := by
  have hnone : regAt a = none := by
    refine List.find?_eq_none.2 fun r _ hr => ?_
    have hoff : regOffset r = a := by simpa using hr
    have hle := regOffset_le r
    rw [hoff] at hle
    omega
  simp [busTarget, busBytes, ha, hhi, hnone]

/-- Every aligned access in 0x100 to 0x3FF reaches a buffer window (R71). -/
theorem busTarget_window {a : HostAddr} {n : BusSize} (hlo : 0x100 ≤ a.toNat) (hhi : a.toNat < 0x400)
    (ha : a.toNat % busBytes n = 0) : ∃ b i, busTarget a n = some (.window b i) := by
  have hcsr : ¬ a.toNat < 0x100 := by omega
  simp only [busTarget, ha, ne_eq, not_true_eq_false, if_false, hcsr, hhi, if_true]
  split
  · exact ⟨_, _, rfl⟩
  · split <;> exact ⟨_, _, rfl⟩

/-! ### The fields of a register word -/

theorem toNat_getLsbD {n : Nat} (x : BitVec n) (i : Nat) : (x.getLsbD i).toNat = x.toNat / 2 ^ i % 2 :=
  Nat.toNat_testBit x.toNat i

theorem toNat_extractLsb'_eq {n : Nat} (x : BitVec n) (i k : Nat) :
    (x.extractLsb' i k).toNat = x.toNat / 2 ^ i % 2 ^ k := by
  rw [BitVec.extractLsb'_toNat, Nat.shiftRight_eq_div_pow]

/-- Fields stand side by side in a word: the upper one counts from the lower one's width on. -/
theorem toNat_append_eq_add {m n : Nat} (x : BitVec m) (y : BitVec n) :
    (x ++ y).toNat = x.toNat * 2 ^ n + y.toNat := by
  rw [BitVec.toNat_append, ← Nat.shiftLeft_add_eq_or_of_lt y.isLt, Nat.shiftLeft_eq]

/-- STATUS read as a number: each field at its bit place (R27). -/
theorem statusWord_eq_ofNat (t : Status) : statusWord t = BitVec.ofNat 32 (t.busy.toNat + 2 * t.done.toNat +
    4 * t.err.toNat + 8 * t.busyErr.toNat + 16 * t.werr.toNat + 256 * t.state.toCode.toNat) := by
  have hstate : t.state.toCode.toNat < 8 := BitVec.isLt _
  have hbusy := Bool.toNat_le t.busy
  have hdone := Bool.toNat_le t.done
  have herr := Bool.toNat_le t.err
  have hbusyErr := Bool.toNat_le t.busyErr
  have hwerr := Bool.toNat_le t.werr
  apply BitVec.eq_of_toNat_eq
  simp only [statusWord, toNat_append_eq_add, BitVec.toNat_ofNat, BitVec.toNat_ofBool]
  omega

/-- RESULT read as a number (R44). -/
theorem resultWord_eq_ofNat (r : Result) : resultWord r = BitVec.ofNat 32 (r.kind.toCode.toNat +
    16 * r.isLocal.toNat + 256 * r.code.toNat + 65536 * r.detail.toNat) := by
  have hkind : r.kind.toCode.toNat < 16 := BitVec.isLt _
  have hdetail : r.detail.toNat < 16 := BitVec.isLt _
  have hcode : r.code.toNat < 256 := BitVec.isLt _
  have hlocal := Bool.toNat_le r.isLocal
  apply BitVec.eq_of_toNat_eq
  simp only [resultWord, toNat_append_eq_add, BitVec.toNat_ofNat, BitVec.toNat_ofBool]
  omega

/-- The configuration registers are their fields, each at its bit place (R31, R36, R42, R47). -/
theorem codecCfg_toNat (s : State) : s.codecCfg.toNat =
    s.width + 16 * s.orderBig.toNat + 32 * s.ovf.toNat + 128 * s.srcStage.toNat + 256 * s.offset := by
  have hlt : s.codecCfg.toNat < 65536 := s.codecCfg.isLt
  simp only [State.width, State.orderBig, State.ovf, State.srcStage, State.offset, toNat_getLsbD,
    toNat_extractLsb'_eq]
  omega

theorem cksCfg_toNat (s : State) : s.cksCfg.toNat = s.cksStart + 256 * s.cksLen + 2 ^ 17 * s.cksBuf.toNat := by
  have hlt : s.cksCfg.toNat < 2 ^ 19 := s.cksCfg.isLt
  simp only [State.cksStart, State.cksLen, State.cksBuf, toNat_extractLsb'_eq]
  omega

theorem linkCfg_toNat (s : State) : s.linkCfg.toNat = s.maxRetries + 2 ^ 16 * s.baudSel.toNat := by
  have hlt : s.linkCfg.toNat < 2 ^ 19 := s.linkCfg.isLt
  simp only [State.maxRetries, State.baudSel, toNat_extractLsb'_eq]
  omega

theorem parseCfg_toNat (s : State) : s.parseCfg.toNat = s.valopc.toNat + 256 * s.resOfs := by
  have hlt : s.parseCfg.toNat < 2 ^ 16 := s.parseCfg.isLt
  simp only [State.valopc, State.resOfs, toNat_extractLsb'_eq]
  omega

theorem extractLsb'_high_eq_ofNat (x : BitVec 64) : x.extractLsb' 32 32 = BitVec.ofNat 32 (x.toNat / 2 ^ 32) := by
  rw [← Nat.shiftRight_eq_div_pow]; rfl

theorem linkState_toCode_mem (st : LinkState) : (st, st.toCode.toNat) ∈ linkStateCodes := by
  cases st <;> decide

theorem cause_toCode_mem (c : FaultCause) : (c, c.toCode.toNat) ∈ causeCodes := by
  cases c <;> decide

theorem kind_toCode_mem (k : Kind) : (k, k.toCode.toNat) ∈ kindCodes := by
  cases k <;> decide

/-! ### Register reads -/

theorem memRead_regOffset_of_eq {r : Reg} {s : State} {w : Word} (h : readReg r s = w) :
    memRead (regOffset r) .word s = some w := by
  rw [memRead_regOffset, h]

theorem setWidth_eq_ofNat {n : Nat} (x : BitVec n) : x.setWidth 32 = BitVec.ofNat 32 x.toNat :=
  (BitVec.ofNat_toNat 32 x).symm

/-- Settles O11, register by register. -/
theorem registerReads : Obligations.RegisterReads := by
  intro s
  refine ⟨memRead_regOffset .id s, ?_, ⟨_, linkState_toCode_mem _, ?_⟩, memRead_regOffset .cmd s,
    ⟨_, cause_toCode_mem _, ?_⟩, ?_, memRead_regOffset .scale s, memRead_regOffset .valueLo s, ?_,
    memRead_regOffset .rawLo s, ?_, memRead_regOffset .dvalLo s, ?_, ?_, ?_, ?_, ?_, ?_, ?_, ?_, ?_, ?_,
    ⟨_, kind_toCode_mem _, ?_⟩⟩
  · exact memRead_regOffset_of_eq (r := .ctrl) (by simp [readReg, setWidth_eq_ofNat])
  · exact memRead_regOffset_of_eq (r := .status) (statusWord_eq_ofNat s.status)
  · exact memRead_regOffset_of_eq (r := .fault) (setWidth_eq_ofNat _)
  · exact memRead_regOffset_of_eq (r := .codecCfg) (codecCfg_toNat s ▸ setWidth_eq_ofNat _)
  · exact memRead_regOffset_of_eq (r := .valueHi) (extractLsb'_high_eq_ofNat _)
  · exact memRead_regOffset_of_eq (r := .rawHi) (extractLsb'_high_eq_ofNat _)
  · exact memRead_regOffset_of_eq (r := .dvalHi) (extractLsb'_high_eq_ofNat _)
  · exact memRead_regOffset_of_eq (r := .cksCfg) (cksCfg_toNat s ▸ setWidth_eq_ofNat _)
  · exact memRead_regOffset_of_eq (r := .cks) (setWidth_eq_ofNat _)
  · exact memRead_regOffset_of_eq (r := .addr) (setWidth_eq_ofNat _)
  · exact memRead_regOffset_of_eq (r := .oplen) (setWidth_eq_ofNat _)
  · exact memRead_regOffset_of_eq (r := .txlen) (setWidth_eq_ofNat _)
  · exact memRead_regOffset_of_eq (r := .rxlen) (setWidth_eq_ofNat _)
  · exact memRead_regOffset_of_eq (r := .linkCfg) (linkCfg_toNat s ▸ setWidth_eq_ofNat _)
  · exact memRead_regOffset_of_eq (r := .retryCnt) (setWidth_eq_ofNat _)
  · exact memRead_regOffset_of_eq (r := .parseCfg) (parseCfg_toNat s ▸ setWidth_eq_ofNat _)
  · exact memRead_regOffset_of_eq (r := .result) (resultWord_eq_ofNat s.result)

/-! ### Writes that change nothing, and dropped writes -/

theorem writeReg_readOnly {r : Reg} (hr : r ∈ readOnlyRegs) (v : Word) (s : State) : writeReg r v s = s := by
  simp only [readOnlyRegs, List.mem_cons, List.not_mem_nil, or_false] at hr
  obtain rfl | rfl | rfl | rfl | rfl | rfl | rfl | rfl | rfl := hr
  all_goals rfl

/-- Settles O12: a reserved offset reaches no register, and a read-only register has no write. -/
theorem reservedAndReadOnlyIgnoreWrites : Obligations.ReservedAndReadOnlyIgnoreWrites := by
  refine fun s v => ⟨fun a hlo hhi ha => ?_, fun r hr => ?_⟩
  · have htarget := busTarget_reserved hlo hhi ha
    exact ⟨by simp [memRead, htarget], by simp [memWrite, htarget]⟩
  · rw [memWrite_regOffset, writeReg_readOnly hr]

/-- A write to an operand register is guarded by BUSY (R53). -/
theorem writeReg_operand_busy {e : Reg × Word} (he : e ∈ operandRegs) (v : Word) {s : State}
    (hb : s.status.busy = true) : writeReg e.1 v s = dropWrite s := by
  simp only [operandRegs, List.mem_cons, List.not_mem_nil, or_false] at he
  obtain rfl | rfl | rfl | rfl | rfl | rfl | rfl | rfl | rfl | rfl | rfl := he
  all_goals exact guardBusy_busy hb

/-- Settles O15: both kinds of target are guarded by BUSY. -/
theorem busyWritesAreDropped : Obligations.BusyWritesAreDropped := by
  rintro s a n v hb (⟨e, he, rfl, rfl⟩ | ⟨hlo, hhi, ha⟩)
  · rw [memWrite_regOffset, writeReg_operand_busy he v hb, dropWrite]
  · obtain ⟨b, i, htarget⟩ := busTarget_window hlo hhi ha
    simp [memWrite, htarget, guardBusy_busy hb, dropWrite]

/-- Settles O14: the write is `writeOneToClear`, bit by bit. -/
theorem statusWriteClearsOnes : Obligations.StatusWriteClearsOnes := by
  intro s v
  refine ⟨writeOneToClear v s.status, memWrite_regOffset .status v s, rfl, rfl, ?_, ?_, ?_, ?_⟩
  all_goals simp

/-! ### The bits an operand register holds -/

/-- Storing the low `k` bits and reading them back masks the value (R24). -/
theorem setWidth_setWidth_eq_and (v : Word) {k : Nat} (hk : k ≤ 32) :
    (v.setWidth k).setWidth 32 = v &&& BitVec.ofNat 32 (2 ^ k - 1) := by
  have hpow : 2 ^ k ≤ 2 ^ 32 := Nat.pow_le_pow_right (by decide) hk
  have hpos : 0 < 2 ^ k := Nat.two_pow_pos k
  apply BitVec.eq_of_toNat_eq
  rw [BitVec.toNat_and, BitVec.toNat_ofNat, Nat.mod_eq_of_lt (by omega), Nat.and_two_pow_sub_one_eq_mod,
    BitVec.toNat_setWidth, BitVec.toNat_setWidth, Nat.mod_eq_of_lt]
  exact (Nat.mod_lt _ hpos).trans_le hpow

/-- What the writable registers hold after a write that is not dropped: the implemented bits of the value (R23). -/
theorem readReg_writeReg_operand {r : Reg} {mask : Word} (hr : (r, mask) ∈ operandRegs) (v : Word) {s : State}
    (hb : s.status.busy = false) : readReg r (writeReg r v s) = v &&& mask := by
  simp only [operandRegs, List.mem_cons, List.not_mem_nil, or_false, Prod.mk.injEq] at hr
  obtain ⟨rfl, rfl⟩ | ⟨rfl, rfl⟩ | ⟨rfl, rfl⟩ | ⟨rfl, rfl⟩ | ⟨rfl, rfl⟩ | ⟨rfl, rfl⟩ | ⟨rfl, rfl⟩ | ⟨rfl, rfl⟩ |
    ⟨rfl, rfl⟩ | ⟨rfl, rfl⟩ | ⟨rfl, rfl⟩ := hr
  all_goals simp only [writeReg, guardBusy_idle hb, readReg]
  · exact setWidth_setWidth_eq_and v (k := 16) (by decide)
  · exact BitVec.and_allOnes.symm
  · rw [BitVec.extractLsb'_append_eq_right]; exact BitVec.and_allOnes.symm
  · rw [BitVec.extractLsb'_append_eq_left]; exact BitVec.and_allOnes.symm
  · exact setWidth_setWidth_eq_and v (k := 19) (by decide)
  · exact setWidth_setWidth_eq_and v (k := 8) (by decide)
  · exact setWidth_setWidth_eq_and v (k := 9) (by decide)
  · exact setWidth_setWidth_eq_and v (k := 9) (by decide)
  · exact setWidth_setWidth_eq_and v (k := 9) (by decide)
  · exact setWidth_setWidth_eq_and v (k := 19) (by decide)
  · exact setWidth_setWidth_eq_and v (k := 16) (by decide)

/-- A write to one half of VALUE changes no other register, the other half included (R33). -/
theorem readReg_writeReg_valueLo_ne {q : Reg} (hq : q ≠ .valueLo) (v : Word) {s : State}
    (hb : s.status.busy = false) : readReg q (writeReg .valueLo v s) = readReg q s := by
  rw [writeReg, guardBusy_idle hb]
  cases q with
  | valueLo => exact absurd rfl hq
  | valueHi => exact BitVec.extractLsb'_append_eq_left
  | _ => rfl

theorem readReg_writeReg_valueHi_ne {q : Reg} (hq : q ≠ .valueHi) (v : Word) {s : State}
    (hb : s.status.busy = false) : readReg q (writeReg .valueHi v s) = readReg q s := by
  rw [writeReg, guardBusy_idle hb]
  cases q with
  | valueHi => exact absurd rfl hq
  | valueLo => exact BitVec.extractLsb'_append_eq_right
  | _ => rfl

/-- A write to one operand register changes no other register. -/
theorem readReg_writeReg_operand_ne {r q : Reg} {mask : Word} (hr : (r, mask) ∈ operandRegs) (hq : q ≠ r) (v : Word)
    {s : State} (hb : s.status.busy = false) : readReg q (writeReg r v s) = readReg q s := by
  cases r with
  | valueLo => exact readReg_writeReg_valueLo_ne hq v hb
  | valueHi => exact readReg_writeReg_valueHi_ne hq v hb
  | codecCfg | scale | cksCfg | addr | oplen | txlen | rxlen | linkCfg | parseCfg =>
    rw [writeReg, guardBusy_idle hb]
    cases q <;> first | exact absurd rfl hq | rfl
  | id | ctrl | status | cmd | fault | rawLo | rawHi | dvalLo | dvalHi | cks | retryCnt | result =>
    simp [operandRegs] at hr

theorem readReg_writeReg_ctrl (v : Word) (s : State) : readReg .ctrl (writeReg .ctrl v s) = v &&& 1#32 := by
  apply BitVec.eq_of_toNat_eq
  rw [readReg, writeReg, BitVec.toNat_setWidth, BitVec.toNat_ofBool, toNat_getLsbD, BitVec.toNat_and,
    BitVec.toNat_ofNat, Nat.one_mod, Nat.and_one_is_mod]
  omega

theorem readReg_writeReg_ctrl_ne {q : Reg} (hq : q ≠ .ctrl) (v : Word) (s : State) :
    readReg q (writeReg .ctrl v s) = readReg q s := by
  cases q with
  | ctrl => exact absurd rfl hq
  | _ => rfl

/-- What no register shows, and the buffers, are equal in both states. -/
def SameHidden (s t : State) : Prop :=
  t.stage = s.stage ∧ t.txbuf = s.txbuf ∧ t.rxbuf = s.rxbuf ∧ t.op = s.op ∧ t.ph = s.ph ∧ t.timer = s.timer ∧
  t.env = s.env

theorem guardBusy_sameHidden {s t : State} (h : SameHidden s t) : SameHidden s (guardBusy s t) := by
  unfold guardBusy
  split
  · exact ⟨rfl, rfl, rfl, rfl, rfl, rfl, rfl⟩
  · exact h

/-- Of the registers only CMD starts anything: every other write leaves the buffers and the hidden state alone. -/
theorem writeReg_sameHidden {r : Reg} (hr : r ≠ .cmd) (v : Word) (s : State) : SameHidden s (writeReg r v s) := by
  cases r with
  | cmd => exact absurd rfl hr
  | codecCfg | scale | valueLo | valueHi | cksCfg | addr | oplen | txlen | rxlen | linkCfg | parseCfg =>
    exact guardBusy_sameHidden ⟨rfl, rfl, rfl, rfl, rfl, rfl, rfl⟩
  | _ => exact ⟨rfl, rfl, rfl, rfl, rfl, rfl, rfl⟩

/-- Settles O13: the written register, the other registers, and what no register shows. -/
theorem operandWritesStoreImplementedBits : Obligations.OperandWritesStoreImplementedBits := by
  rintro s r mask v (⟨hr, hb⟩ | ⟨rfl, rfl⟩)
  · have hcmd : r ≠ .cmd := by rintro rfl; simp [operandRegs] at hr
    exact ⟨writeReg r v s, memWrite_regOffset r v s, readReg_writeReg_operand hr v hb,
      fun q hq => readReg_writeReg_operand_ne hr hq v hb, writeReg_sameHidden hcmd v s⟩
  · exact ⟨writeReg .ctrl v s, memWrite_regOffset .ctrl v s, readReg_writeReg_ctrl v s,
      fun q hq => readReg_writeReg_ctrl_ne hq v s, writeReg_sameHidden (by decide) v s⟩

end Sys2Proof.Machine
end

section
/-! SUPPORT. The host bus as a whole: which accesses the address map answers, what a buffer window reads and stores, the
step of a scheduled access, and the obligations on legality, window accesses and the host's steps. -/

namespace Sys2Proof.Machine

open Sys2Proof

/-! ### Legal and illegal accesses -/

/-- A misaligned access, a CSR access of another size than 4 and an unmapped address reach nothing (R72, R73). -/
theorem busTarget_eq_none_of_illegal {a : HostAddr} {n : BusSize}
    (h : a.toNat % busBytes n ≠ 0 ∨ (a.toNat < 0x100 ∧ n ≠ .word) ∨ 0x400 ≤ a.toNat) : busTarget a n = none := by
  unfold busTarget
  obtain hmis | ⟨hcsr, hsize⟩ | hunmapped := h
  · rw [if_pos hmis]
  · rw [if_pos hcsr, if_neg hsize, ite_self]
  · rw [if_neg (by omega : ¬ a.toNat < 0x100), if_neg (by omega : ¬ a.toNat < 0x200),
      if_neg (by omega : ¬ a.toNat < 0x300), if_neg (by omega : ¬ a.toNat < 0x400), ite_self]

/-- An aligned 4-byte access below 0x100 reaches a register or a reserved offset (R71). -/
theorem busTarget_csrRange {a : HostAddr} (hlt : a.toNat < 0x100) (ha : a.toNat % busBytes .word = 0) :
    (busTarget a .word).isSome = true := by
  simp [busTarget, ha, hlt]

/-- The legal accesses are the aligned ones of a size their range allows (R72). -/
theorem busTarget_isSome_iff (a : HostAddr) (n : BusSize) : (busTarget a n).isSome = true ↔
    a.toNat % busBytes n = 0 ∧ ((a.toNat < 0x100 ∧ n = .word) ∨ (0x100 ≤ a.toNat ∧ a.toNat < 0x400)) := by
  constructor
  · intro hsome
    have hlegal : ¬ (a.toNat % busBytes n ≠ 0 ∨ (a.toNat < 0x100 ∧ n ≠ .word) ∨ 0x400 ≤ a.toNat) := by
      intro hillegal
      rw [busTarget_eq_none_of_illegal hillegal] at hsome
      cases hsome
    simp only [not_or, not_and, not_not, not_le] at hlegal
    obtain ⟨ha, hword, hhi⟩ := hlegal
    exact ⟨ha, (lt_or_ge a.toNat 0x100).imp (fun hlt => ⟨hlt, hword hlt⟩) (fun hlo => ⟨hlo, hhi⟩)⟩
  · rintro ⟨ha, ⟨hlt, rfl⟩ | ⟨hlo, hhi⟩⟩
    · exact busTarget_csrRange hlt ha
    · obtain ⟨b, i, htarget⟩ := busTarget_window hlo hhi ha
      rw [htarget, Option.isSome_some]

/-- An aligned access does not cross the end of its 256-byte range (R72). -/
theorem aligned_within_range {k : Nat} {n : BusSize} (h : k % busBytes n = 0) : k % 0x100 + busBytes n ≤ 0x100 := by
  cases n <;> simp only [busBytes] at h ⊢ <;> omega

/-! ### The steps of the host -/

/-- The step of a scheduled access is the access, on the state with the event taken off the agenda (R80, R85). -/
theorem step_host {s : State} {acc : Access} {es : List Event} (h : s.env.agenda = .host acc :: es) :
    step s = .next (hostAccess acc (withAgenda es s)) := by
  simp [step, h, perform]

theorem memRead_withAgenda (a : HostAddr) (n : BusSize) (es : List Event) (s : State) :
    memRead a n (withAgenda es s) = memRead a n s := rfl

theorem guardBusy_withAgenda {es : List Event} {s t t' : State} (ht : t' = withAgenda es t) :
    guardBusy (withAgenda es s) t' = withAgenda es (guardBusy s t) := by
  subst ht
  exact (apply_ite (withAgenda es) (s.status.busy = true) (dropWrite s) t).symm

theorem setBuffer_withAgenda (es : List Event) (s : State) (b : BufId) (m : Memory) :
    (withAgenda es s).setBuffer b m = withAgenda es (s.setBuffer b m) := by
  cases b <;> rfl

theorem buffer_withAgenda (es : List Event) (s : State) (b : BufId) : (withAgenda es s).buffer b = s.buffer b := by
  cases b <;> rfl

/-- What a register write does, it does whatever is scheduled next. -/
theorem writeReg_withAgenda (r : Reg) (v : Word) (es : List Event) (s : State) :
    writeReg r v (withAgenda es s) = withAgenda es (writeReg r v s) := by
  cases r with
  | cmd => exact (apply_ite (withAgenda es) (s.status.busy = true) (refuseCmd s) (accept v s)).symm
  | codecCfg | scale | valueLo | valueHi | cksCfg | addr | oplen | txlen | rxlen | linkCfg | parseCfg =>
    simp only [writeReg]
    exact guardBusy_withAgenda rfl
  | _ => rfl

theorem memWrite_withAgenda (a : HostAddr) (n : BusSize) (v : Word) (es : List Event) (s : State) :
    memWrite a n v (withAgenda es s) = (memWrite a n v s).map (withAgenda es) := by
  unfold memWrite
  cases busTarget a n with
  | none => rfl
  | some target =>
    cases target with
    | csr r => exact congrArg some (writeReg_withAgenda r v es s)
    | reserved => rfl
    | window b i =>
      simp only [buffer_withAgenda, Option.map_some]
      exact congrArg some (guardBusy_withAgenda (setBuffer_withAgenda es s b _))

/-- No host write reaches the outside world. -/
theorem WriteEffect.env_eq {v : Word} {s u : State} (h : WriteEffect v s u) : u.env = s.env := by
  cases h with
  | window b i bs _ => exact setBuffer_env s b _
  | _ => rfl

/-- Settles O10: a read depends on nothing scheduled, and its step is MemRead's answer. -/
theorem readsChangeNothing : Obligations.ReadsChangeNothing := by
  intro s a n es hagenda
  rw [step_host hagenda]
  refine ⟨fun d hread => ?_, fun hread => ?_⟩
  all_goals
    rw [← memRead_withAgenda a n es s] at hread
    simp only [hostAccess, hread]
    rfl

/-- Settles O60: a write depends on nothing scheduled and leaves the outside world to the answer. -/
theorem writesPerformMemWrite : Obligations.WritesPerformMemWrite := by
  intro s u a n v es hagenda hwrite
  have hpopped : memWrite a n v (withAgenda es s) = some (withAgenda es u) := by
    rw [memWrite_withAgenda, hwrite, Option.map_some]
  refine ⟨0#32, ?_⟩
  rw [step_host hagenda, ← (memWrite_effect hwrite).env_eq]
  simp only [hostAccess, hpopped]
  rfl

/-- Settles O9: an illegal access is one the address map does not answer. -/
theorem legalAndIllegalAccesses : Obligations.LegalAndIllegalAccesses := by
  refine ⟨fun a n => ⟨busTarget_isSome_iff a n, fun hsome => ?_⟩, fun s a n es hillegal => ?_⟩
  · exact aligned_within_range ((busTarget_isSome_iff a n).1 hsome).1
  · have htarget := busTarget_eq_none_of_illegal hillegal
    refine ⟨fun hagenda => ?_, fun v hagenda => ⟨0#32, ?_⟩⟩
    · exact (readsChangeNothing s a n es hagenda).2 (by simp [memRead, htarget])
    · have hwrite : memWrite a n v (withAgenda es s) = none := by simp [memWrite, htarget]
      rw [step_host hagenda]
      simp only [hostAccess, hwrite]
      rfl

/-! ### The buffer windows -/

/-- The buffer windows and their first addresses (R71). -/
def windowBases : List (BufId × Nat) := [(.stage, 0x100), (.txbuf, 0x200), (.rxbuf, 0x300)]

/-- An aligned access in a buffer's window reaches that buffer, at the index counted from the window's base (R71). -/
theorem busTarget_windowBases {b : BufId} {base : Nat} {a : HostAddr} {n : BusSize} (hb : (b, base) ∈ windowBases)
    (hlo : base ≤ a.toNat) (hhi : a.toNat < base + 0x100) (ha : a.toNat % busBytes n = 0) :
    busTarget a n = some (.window b (a.toNat - base)) := by
  simp only [windowBases, List.mem_cons, List.not_mem_nil, or_false, Prod.mk.injEq] at hb
  unfold busTarget
  rw [if_neg (not_not_intro ha)]
  obtain ⟨rfl, rfl⟩ | ⟨rfl, rfl⟩ | ⟨rfl, rfl⟩ := hb
  · rw [if_neg (by omega), if_pos hhi]
  · rw [if_neg (by omega), if_neg (by omega), if_pos hhi]
  · rw [if_neg (by omega), if_neg (by omega), if_neg (by omega), if_pos hhi]

theorem memRead_windowBases {b : BufId} {base : Nat} {a : HostAddr} {n : BusSize} (hb : (b, base) ∈ windowBases)
    (hlo : base ≤ a.toNat) (hhi : a.toNat < base + 0x100) (ha : a.toNat % busBytes n = 0) (s : State) :
    memRead a n s = some (BitVec.ofNat 32 (leValue ((s.buffer b).readBytes (a.toNat - base) (busBytes n)))) := by
  simp only [memRead, busTarget_windowBases hb hlo hhi ha]

theorem memWrite_windowBases {b : BufId} {base : Nat} {a : HostAddr} {n : BusSize} (hb : (b, base) ∈ windowBases)
    (hlo : base ≤ a.toNat) (hhi : a.toNat < base + 0x100) (ha : a.toNat % busBytes n = 0) (v : Word) {s : State}
    (hidle : s.status.busy = false) : memWrite a n v s =
      some (s.setBuffer b ((s.buffer b).writeBytes (a.toNat - base) (leBytes v.toNat (busBytes n)))) := by
  simp only [memWrite, busTarget_windowBases hb hlo hhi ha, guardBusy_idle hidle]

/-- The bytes of an aligned window access lie inside the buffer. -/
theorem window_index_add_busBytes_le {b : BufId} {base : Nat} {a : HostAddr} {n : BusSize}
    (hb : (b, base) ∈ windowBases) (hlo : base ≤ a.toNat) (hhi : a.toNat < base + 0x100)
    (ha : a.toNat % busBytes n = 0) : a.toNat - base + busBytes n ≤ 256 := by
  have hend := aligned_within_range ha
  have hindex : a.toNat % 0x100 = a.toNat - base := by
    simp only [windowBases, List.mem_cons, List.not_mem_nil, or_false, Prod.mk.injEq] at hb
    omega
  rwa [hindex] at hend

/-- The first byte of a little-endian list is the lowest byte of its number (R76). -/
theorem ofNat_leValue_cons (k : Nat) (b : Byte) (bs : List Byte) :
    BitVec.ofNat (k + 8) (leValue (b :: bs)) = BitVec.ofNat k (leValue bs) ++ b := by
  apply BitVec.eq_of_toNat_eq
  have hb := b.isLt
  rw [toNat_append_eq_add, BitVec.toNat_ofNat, BitVec.toNat_ofNat, leValue, pow_add, Nat.mul_comm (2 ^ k),
    Nat.mod_mul, show (b.toNat + 256 * leValue bs) % 2 ^ 8 = b.toNat by omega,
    show (b.toNat + 256 * leValue bs) / 2 ^ 8 = leValue bs by omega]
  omega

theorem ofNat_leValue_singleton (b : Byte) : BitVec.ofNat 8 (leValue [b]) = b := by
  simp [leValue]

/-- Settles O16: the window's target, and its bytes joined from the lowest. -/
theorem windowReadsLittleEndian : Obligations.WindowReadsLittleEndian := by
  intro s b base a hb hlo hhi
  refine ⟨?_, fun ha => ?_, fun ha => ?_⟩
  · rw [memRead_windowBases hb hlo hhi (n := .byte) (Nat.mod_one _)]
    exact congrArg some (ofNat_leValue_cons 24 _ [])
  · rw [memRead_windowBases hb hlo hhi (n := .half) ha]
    refine congrArg some ((ofNat_leValue_cons 24 _ _).trans ?_)
    exact congrArg (· ++ _) (ofNat_leValue_cons 16 _ [])
  · rw [memRead_windowBases hb hlo hhi (n := .word) ha]
    refine congrArg some ((ofNat_leValue_cons 24 _ _).trans ?_)
    refine congrArg (· ++ _) ((ofNat_leValue_cons 16 _ _).trans ?_)
    refine congrArg (· ++ _) ((ofNat_leValue_cons 8 _ _).trans ?_)
    exact congrArg (· ++ _) (ofNat_leValue_singleton _)

/-- Storing a list inside the buffer replaces exactly its bytes. -/
theorem replaced_writeBytes {m : Memory} {a : Nat} {bs : List Byte} {f : Nat → Byte} (hm : m.wf = true)
    (hlen : a + bs.length ≤ 256) (hf : ∀ (i : Nat) (h : i < bs.length), bs[i] = f i) :
    Replaced m (m.writeBytes a bs) a bs.length f := by
  refine ⟨fun i hi => ?_, fun j hj => ?_⟩
  · rw [Memory.read_writeBytes bs m a _ hm hlen]
    simp [hi, hf]
  · rw [Memory.read_writeBytes bs m a j hm hlen]
    obtain hbelow | habove := hj
    · rw [if_neg (by omega)]
    · rw [dif_neg (by omega), ite_self]

/-- Byte `i` of a word, as the bus stores it, is bits `8i + 7 : 8i` (R77). -/
theorem leBytes_toNat_getElem (v : Word) (n i : Nat) (h : i < (leBytes v.toNat n).length) :
    (leBytes v.toNat n)[i] = v.extractLsb' (8 * i) 8 := by
  rw [leBytes_getElem, BitVec.extractLsb', Nat.shiftRight_eq_div_pow, pow_mul]
  rfl

/-- Settles O17: an idle write stores the value's bytes, lowest first, in the window's buffer. -/
theorem windowWritesStoreBytes : Obligations.WindowWritesStoreBytes := by
  intro s b base a n v hb hlo hhi ha hidle hm
  refine ⟨_, memWrite_windowBases hb hlo hhi ha v hidle, ?_⟩
  have hfits := window_index_add_busBytes_le hb hlo hhi ha
  rw [← leBytes_length v.toNat (busBytes n)] at hfits
  simpa using replaced_writeBytes hm hfits fun i hi => leBytes_toNat_getElem v _ i hi

end Sys2Proof.Machine
end

section
/-! SUPPORT. The decoder and the encoder: both are the code table read one way or the other, a word is its RSVD and its
CODE, and the obligations on command words. -/

namespace Sys2Proof.Machine

open Sys2Proof

/-! ### The code table -/

theorem commandOfCode_codeOf (i : Instr) : commandOfCode (codeOf i) = some i := by
  cases i <;> rfl

theorem commandOfCode_eq_none {code : BitVec 8} (h : ∀ i, code ≠ codeOf i) : commandOfCode code = none :=
  (if_neg (h .encode)).trans <| (if_neg (h .decode)).trans <| (if_neg (h .cksum)).trans <|
    (if_neg (h .buildLoad)).trans <| (if_neg (h .buildMeter)).trans <| (if_neg (h .send)).trans <|
    (if_neg (h .recv)).trans <| (if_neg (h .query)).trans <| (if_neg (h .parseLoad)).trans <| if_neg (h .parseMeter)

/-- The decoder's table and the encoder's are the same table (R101). -/
theorem commandOfCode_eq_some_iff (code : BitVec 8) (i : Instr) : commandOfCode code = some i ↔ code = codeOf i := by
  refine ⟨fun h => ?_, fun h => h ▸ commandOfCode_codeOf i⟩
  by_cases hknown : ∃ j, code = codeOf j
  · obtain ⟨j, rfl⟩ := hknown
    rw [commandOfCode_codeOf, Option.some.injEq] at h
    rw [h]
  · rw [commandOfCode_eq_none (not_exists.1 hknown)] at h
    cases h

theorem mem_commandTable_iff (code : BitVec 8) (i : Instr) : (code, i) ∈ commandTable ↔ code = codeOf i := by
  cases i <;> simp [commandTable, codeOf]

theorem legalCodes_eq : legalCodes = commandTable.map Prod.fst := rfl

/-- The legal codes are those of the commands. -/
theorem mem_legalCodes_iff (code : BitVec 8) : code ∈ legalCodes ↔ ∃ i, code = codeOf i := by
  simp only [legalCodes_eq, List.mem_map, Prod.exists, exists_and_right, exists_eq_right, mem_commandTable_iff]

/-! ### Decoding and encoding -/

/-- `decode(w) = cmd` of R103: RSVD is 0 and CODE is the command's. -/
theorem decodeWord_eq_ok_iff (w : Word) (i : Instr) :
    decodeWord w = .ok i ↔ w.extractLsb' 8 24 = 0#24 ∧ w.extractLsb' 0 8 = codeOf i := by
  rw [← commandOfCode_eq_some_iff]
  unfold decodeWord
  split
  · next hrsvd =>
    cases hcode : commandOfCode (w.extractLsb' 0 8) <;> simp [hrsvd]
  · next hrsvd => simp [hrsvd]

/-- Decoding is total: what is no command is ILLEGAL (R103). -/
theorem exists_decodeWord_error_iff (w : Word) :
    (∃ e, decodeWord w = .error e) ↔ ¬ ∃ i, decodeWord w = .ok i := by
  cases decodeWord w <;> simp

/-- The words that decode are the legal ones (R102). -/
theorem exists_decodeWord_ok_iff (w : Word) :
    (∃ i, decodeWord w = .ok i) ↔ w.extractLsb' 8 24 = 0#24 ∧ w.extractLsb' 0 8 ∈ legalCodes := by
  simp only [decodeWord_eq_ok_iff, exists_and_left, mem_legalCodes_iff]

theorem wellFormedWord_iff (w : Word) :
    wellFormedWord w = true ↔ w.extractLsb' 8 24 = 0#24 ∧ w.extractLsb' 0 8 ∈ legalCodes := by
  simp [wellFormedWord, reservedZero, codeKnown]

theorem illegalWord_iff (w : Word) :
    IllegalWord w ↔ ¬ (w.extractLsb' 8 24 = 0#24 ∧ w.extractLsb' 0 8 ∈ legalCodes) := by
  rw [IllegalWord, not_and_or, legalCodes_eq, List.mem_map]
  simp only [not_exists, not_and, ne_comm, ne_eq]

/-- An illegal word is one that decodes to ILLEGAL (R102, R103). -/
theorem exists_decodeWord_error_iff_illegalWord (w : Word) : (∃ e, decodeWord w = .error e) ↔ IllegalWord w := by
  rw [exists_decodeWord_error_iff, exists_decodeWord_ok_iff, illegalWord_iff]

/-- A word is the one a command encodes to when its two fields are the command's: no bit lies outside them (R100). -/
theorem encodeWord_eq_iff (i : Instr) (w : Word) :
    encodeWord i = w ↔ w.extractLsb' 8 24 = 0#24 ∧ w.extractLsb' 0 8 = codeOf i := by
  have hfields : w.extractLsb' 8 24 ++ w.extractLsb' 0 8 = w :=
    (BitVec.extractLsb'_append_extractLsb'_eq_extractLsb' (start₁ := 0) (len₁ := 8) rfl).trans
      BitVec.extractLsb'_eq_self
  constructor
  · rintro rfl
    exact ⟨BitVec.extractLsb'_append_eq_left, BitVec.extractLsb'_append_eq_right⟩
  · rintro ⟨hrsvd, hcode⟩
    rw [← hfields, hrsvd, hcode, encodeWord]

/-- Decoding undoes encoding, and nothing else decodes to the command. -/
theorem decodeWord_eq_ok_iff_encodeWord (w : Word) (i : Instr) : decodeWord w = .ok i ↔ encodeWord i = w := by
  rw [decodeWord_eq_ok_iff, encodeWord_eq_iff]

/-- Settles O2: both tables give the code of the command. -/
theorem decodeIsByCode : Obligations.DecodeIsByCode := by
  refine fun w => ⟨fun i => ?_, exists_decodeWord_error_iff_illegalWord w⟩
  rw [decodeWord_eq_ok_iff, mem_commandTable_iff]

/-- Settles O3: a word decodes to a command exactly when the command encodes to it. -/
theorem decodeEncodeAgree : Obligations.DecodeEncodeAgree := by
  refine ⟨fun i _ => ⟨rfl, ?_⟩, fun w i => (decodeWord_eq_ok_iff_encodeWord w i).1, fun w => ?_⟩
  · exact (decodeWord_eq_ok_iff_encodeWord _ i).2 rfl
  · rw [wellFormedWord_iff, exists_decodeWord_ok_iff]

/-- Settles O1: the eight words are evaluated. -/
theorem writtenWordsDecode : Obligations.WrittenWordsDecode := by
  unfold Obligations.WrittenWordsDecode
  decide

end Sys2Proof.Machine
end

section
/-! SUPPORT. The two steps of a command word that is accepted while idle: the host's write and the engine's turn, and
the obligation on illegal words. -/

namespace Sys2Proof.Machine

open Sys2Proof

/-- The engine's scheduled turn, on the state with the event taken off the agenda (R85, R172). -/
theorem step_engine {s : State} {es : List Event} (h : s.env.agenda = .engine :: es) :
    step s = engineTurn (withAgenda es s) := by
  simp [step, h, perform]

theorem writeReg_cmd_idle (w : Word) {s : State} (hidle : s.status.busy = false) :
    writeReg .cmd w s = accept w s := by
  simp [writeReg, hidle]

/-- The step of a CMD write while BUSY = 0: acceptance, and an OK response (R80, R221). -/
theorem step_cmdWrite_idle {s : State} {w : Word} {es : List Event}
    (hagenda : s.env.agenda = .host (.write (regOffset .cmd) .word w) :: es) (hidle : s.status.busy = false) :
    step s = .next (respond false 0#32 (accept w (withAgenda es s))) := by
  have hbusy : (withAgenda es s).status.busy = false := hidle
  rw [step_host hagenda]
  simp only [hostAccess, memWrite_regOffset, writeReg_cmd_idle w hbusy]

/-- The engine's turn on a command just accepted whose word does not decode (R102, R172). -/
theorem engineTurn_illegal {s : State} (hbusy : s.status.busy = true) (hph : s.ph = .start)
    (hcmd : ∃ e, decodeWord s.cmd = .error e) : engineTurn s = .next (raiseFault .illegalCmd s) := by
  obtain ⟨e, he⟩ := hcmd
  simp only [engineTurn, if_pos hbusy, engineStep, hph, he]

/-- Settles O6: the write's step accepts the word, and the engine's step faults. -/
theorem illegalWordFaults : Obligations.IllegalWordFaults := by
  intro s w es hagenda hidle hillegal
  have hfault : ∃ e, decodeWord w = .error e := (exists_decodeWord_error_iff_illegalWord w).2 hillegal
  refine ⟨0#32, (runsTo_succ (step_cmdWrite_idle hagenda hidle)).2 ?_⟩
  have hturn : step (respond false 0#32 (accept w (withAgenda (.engine :: es) s))) =
      .next (raiseFault .illegalCmd (withAgenda es (respond false 0#32 (accept w (withAgenda (.engine :: es) s))))) :=
    (step_engine rfl).trans (engineTurn_illegal rfl rfl hfault)
  exact (runsTo_succ hturn).2 ((runsTo_zero _ _).2 rfl)

end Sys2Proof.Machine
end

section
/-! SUPPORT. The frame builder: what each byte of a built frame reads as, when the builders complete, and the
obligations on BUILD_LOAD and BUILD_METER. -/

namespace Sys2Proof.Machine

open Sys2Proof

/-! ### Reading a stored list -/

/-- A list stored at the start of a buffer: its bytes by index, and beyond its end the buffer as before. -/
theorem Memory.read_writeBytes_zero {m : Memory} {bs : List Byte} (hm : m.wf = true) (hlen : bs.length ≤ 256)
    (j : Nat) : (m.writeBytes 0 bs).read j = bs[j]?.getD (m.read j) := by
  rw [Memory.read_writeBytes bs m 0 j hm (by omega), if_pos (Nat.zero_le j), Nat.sub_zero]
  split
  · next hj => simp [hj]
  · next hj => simp [Nat.le_of_not_lt hj]

/-- A checksum stays the checksum of every buffer that reads the same in the summed range (R140). -/
theorem sum8_toNat_of_read_eq {m m' : Memory} {a n : Nat} (h : ∀ i, i < n → m'.read (a + i) = m.read (a + i)) :
    (m.sum8 a n).toNat = sumMod256 m' a n := by
  rw [← Memory.sum8_congr h, Memory.sum8_toNat, sumMod256]

/-! ### The load frame -/

section
variable {addr : Byte} {bs : List Byte}

theorem loadBody_getElem?_payload {i : Nat} (hi : i < bs.length) : (loadBody addr bs)[2 + i]? = bs[i]? := by
  rw [Nat.add_comm, loadBody, List.append_assoc]
  exact List.getElem?_append_left hi

theorem loadBody_getElem?_fill {j : Nat} (hlo : 2 + bs.length ≤ j) (hhi : j ≤ 24) :
    (loadBody addr bs)[j]? = some 0x00#8 := by
  rw [loadBody, List.getElem?_append_right (by simp; omega), List.getElem?_replicate_of_lt (by simp; omega)]

/-- What a built load frame reads as: the body, the checksum at 25, and from 26 on the buffer as before (R106, R151). -/
theorem read_loadFrame {tx : Memory} (htx : tx.wf = true) (hbs : bs.length ≤ 23) (j : Nat) :
    (loadFrame addr bs tx).read j =
      if j = 25 then (tx.writeBytes 0 (loadBody addr bs)).sum8 0 25 else (loadBody addr bs)[j]?.getD (tx.read j) := by
  have hlen := loadBody_length addr bs hbs
  rw [loadFrame, Memory.read_write _ _ _ (Memory.writeBytes_wf _ _ _ htx) (by decide),
    Memory.read_writeBytes_zero htx (by omega)]

theorem read_loadFrame_checksum {tx : Memory} (htx : tx.wf = true) (hbs : bs.length ≤ 23) :
    ((loadFrame addr bs tx).read 25).toNat = sumMod256 (loadFrame addr bs tx) 0 25 := by
  have hbody := loadBody_length addr bs hbs
  rw [read_loadFrame htx hbs, if_pos rfl]
  refine sum8_toNat_of_read_eq fun i hi => ?_
  rw [read_loadFrame htx hbs, if_neg (by omega), Memory.read_writeBytes_zero htx (by omega)]

/-- But for its checksum a built load frame reads as its body. -/
theorem read_loadFrame_body {tx : Memory} (htx : tx.wf = true) (hbs : bs.length ≤ 23) {j : Nat} (hj : j ≠ 25) :
    (loadFrame addr bs tx).read j = (loadBody addr bs)[j]?.getD (tx.read j) := by
  rw [read_loadFrame htx hbs, if_neg hj]

end

/-- BUILD_LOAD with its checks passed (R151). -/
theorem exec_buildLoad_ok {s : State} (hlo : 1 ≤ s.oplen.toNat) (hhi : s.oplen.toNat ≤ 23)
    (haddr : loadAddrOk s.addr = true) : exec .buildLoad s = .next (complete { s with
      txbuf := loadFrame s.addr (s.stage.readBytes 0 s.oplen.toNat) s.txbuf, txlen := 26#9 }) := by
  show execBuildLoad s = _
  rw [execBuildLoad, if_neg (by omega), if_neg (by omega), if_pos haddr]
  rfl

/-- Settles O40: TXBUF is the load frame, read byte by byte. -/
theorem buildLoadWritesTheFrame : Obligations.BuildLoadWritesTheFrame := by
  intro s hlo hhi haddr htx
  have hlen : (s.stage.readBytes 0 s.oplen.toNat).length = s.oplen.toNat := Memory.readBytes_length _ _ _
  have hbs := hlen.trans_le hhi
  refine ⟨_, exec_buildLoad_ok hlo hhi ((loadAddrOk_iff s.addr).2 haddr), ?_, ?_, fun i hi => ?_, fun j hj hj' => ?_,
    read_loadFrame_checksum htx hbs, fun j hj => ?_⟩
  · rw [read_loadFrame_body htx hbs (by decide)]
    rfl
  · rw [read_loadFrame_body htx hbs (by decide)]
    rfl
  · rw [read_loadFrame_body htx hbs (by omega), loadBody_getElem?_payload (by omega)]
    simp [hi]
  · rw [read_loadFrame_body htx hbs (by omega), loadBody_getElem?_fill (by omega) hj']
    rfl
  · have hend := loadBody_length s.addr _ hbs
    rw [read_loadFrame_body htx hbs (by omega), List.getElem?_eq_none (by omega)]
    rfl

/-! ### The meter frame -/

section
variable {len : Nat} {addr : Byte} {bs : List Byte}

theorem meterBody_getElem?_payload (i : Nat) : (meterBody len addr bs)[4 + i]? = bs[i]? := by
  rw [Nat.add_comm]
  rfl

/-- What a built meter frame reads as: the body, the checksum and the end delimiter behind it, and beyond them the
buffer as before (R108, R152). -/
theorem read_meterFrame {tx : Memory} (htx : tx.wf = true) (hlen : len = bs.length + 6) (hbs : bs.length ≤ 250)
    (j : Nat) : (meterFrame len addr bs tx).read j =
      if j = len - 1 then Config.meterEof
      else if j = len - 2 then (tx.writeBytes 0 (meterBody len addr bs)).sum8 1 (len - 3)
      else (meterBody len addr bs)[j]?.getD (tx.read j) := by
  have hbody := meterBody_length len addr bs
  have hwf := Memory.writeBytes_wf (meterBody len addr bs) tx 0 htx
  rw [meterFrame, Memory.read_write _ _ _ (Memory.write_wf _ _ hwf) (by omega),
    Memory.read_write _ _ _ hwf (by omega), Memory.read_writeBytes_zero htx (by omega)]

theorem read_meterFrame_checksum {tx : Memory} (htx : tx.wf = true) (hlen : len = bs.length + 6)
    (hbs : bs.length ≤ 250) :
    ((meterFrame len addr bs tx).read (len - 2)).toNat = sumMod256 (meterFrame len addr bs tx) 1 (len - 3) := by
  have hbody := meterBody_length len addr bs
  rw [read_meterFrame htx hlen hbs, if_neg (by omega), if_pos rfl]
  refine sum8_toNat_of_read_eq fun i hi => ?_
  rw [read_meterFrame htx hlen hbs, if_neg (by omega), if_neg (by omega),
    Memory.read_writeBytes_zero htx (by omega)]

/-- Below its checksum a built meter frame reads as its body. -/
theorem read_meterFrame_body {tx : Memory} (htx : tx.wf = true) (hlen : len = bs.length + 6) (hbs : bs.length ≤ 250)
    {j : Nat} (hj : j < len - 2) :
    (meterFrame len addr bs tx).read j = (meterBody len addr bs)[j]?.getD (tx.read j) := by
  rw [read_meterFrame htx hlen hbs, if_neg (by omega), if_neg (by omega)]

end

/-- An address of 1 to 254 is the meter dialect's (R108). -/
theorem meterAddrOk_of_bounds {a : Byte} (hlo : 1 ≤ a.toNat) (hhi : a.toNat ≤ 254) : meterAddrOk a = true := by
  rw [meterAddrOk_iff]
  constructor <;> rintro rfl <;> simp at hlo hhi

/-- BUILD_METER with its checks passed (R152). -/
theorem exec_buildMeter_ok {s : State} (hlo : 2 ≤ s.oplen.toNat) (hhi : s.oplen.toNat ≤ 250)
    (haddr : meterAddrOk s.addr = true) : exec .buildMeter s = .next (complete { s with
      txbuf := meterFrame (s.oplen.toNat + 6) s.addr (s.stage.readBytes 0 s.oplen.toNat) s.txbuf
      txlen := BitVec.ofNat 9 (s.oplen.toNat + 6) }) := by
  show execBuildMeter s = _
  rw [execBuildMeter, if_neg (by omega), if_neg (by omega), if_pos haddr]

/-- Settles O41: TXBUF is the meter frame, read byte by byte. -/
theorem buildMeterWritesTheFrame : Obligations.BuildMeterWritesTheFrame := by
  intro s hlo hhi haddr haddr' htx
  have hlen : (s.stage.readBytes 0 s.oplen.toNat).length = s.oplen.toNat := Memory.readBytes_length _ _ _
  have hbs := hlen.trans_le hhi
  have hframe : s.oplen.toNat + 6 = (s.stage.readBytes 0 s.oplen.toNat).length + 6 := by rw [hlen]
  refine ⟨_, exec_buildMeter_ok hlo hhi (meterAddrOk_of_bounds haddr haddr'), ?_, ?_, ?_, ?_, fun i hi => ?_,
    read_meterFrame_checksum htx hframe hbs, ?_, fun j hj => ?_⟩
  · rw [read_meterFrame_body htx hframe hbs (by omega)]
    rfl
  · rw [read_meterFrame_body htx hframe hbs (by omega)]
    exact (BitVec.toNat_ofNat ..).trans (Nat.mod_eq_of_lt (by omega))
  · rw [read_meterFrame_body htx hframe hbs (by omega)]
    exact BitVec.toNat_ofNat ..
  · rw [read_meterFrame_body htx hframe hbs (by omega)]
    rfl
  · rw [read_meterFrame_body htx hframe hbs (by omega), meterBody_getElem?_payload]
    simp [hi]
  · rw [read_meterFrame htx hframe hbs]
    exact if_pos rfl
  · have hend := meterBody_length (s.oplen.toNat + 6) s.addr (s.stage.readBytes 0 s.oplen.toNat)
    rw [read_meterFrame htx hframe hbs, if_neg (by omega), if_neg (by omega), List.getElem?_eq_none (by omega)]
    rfl

end Sys2Proof.Machine
end

section
/-! SUPPORT. The codec: its configuration checks and its limit as equations, the field's bytes by significance, and the
obligations on ENCODE and DECODE (R120 to R125, R127). -/

namespace Sys2Proof.Machine

open Sys2Proof

/-! ### The configuration checks -/

theorem codecCheck_encode_eq_none {s : State} (hok : CodecConfigOk s) (hovf : s.ovf ≠ 3#2) :
    codecCheck true s = none := by
  obtain ⟨hlo, hhi, hscale, hrange⟩ := hok
  exact (codecCheck_eq_none_iff true s).2 ⟨hlo, hhi, hscale, fun _ => hovf, hrange⟩

theorem codecCheck_decode_eq_none {s : State} (hok : CodecConfigOk s) : codecCheck false s = none := by
  obtain ⟨hlo, hhi, hscale, hrange⟩ := hok
  exact (codecCheck_eq_none_iff false s).2 ⟨hlo, hhi, hscale, fun h => absurd h Bool.false_ne_true, hrange⟩

theorem CodecConfigOk.scale_pos {s : State} (hok : CodecConfigOk s) : 0 < s.scale.toNat := by
  obtain ⟨-, -, hscale, -⟩ := hok
  exact Nat.pos_of_ne_zero fun h => hscale (BitVec.eq_of_toNat_eq h)

/-- The first configuration check that fails ends a codec command (R120). -/
theorem exec_codec_fault {i : Instr} {s : State} {c : FaultCause} (hi : i = .encode ∨ i = .decode)
    (hc : codecCheck (decide (i = .encode)) s = some c) : exec i s = .next (raiseFault c s) := by
  obtain rfl | rfl := hi
  · show execEncode s = _
    rw [execEncode, show codecCheck true s = some c from hc]
  · show execDecode s = _
    rw [execDecode, show codecCheck false s = some c from hc]

theorem exec_encode_notFinite {s : State} (hc : codecCheck true s = none) (hf : f64IsFinite s.value = false) :
    exec .encode s = .next (raiseFault .encNotFinite s) := by
  show execEncode s = _
  simp only [execEncode, hc, hf, Bool.false_eq_true, if_false]

theorem f64IsFinite_eq_false {f : BitVec 64} (h : f64IsNaN f = true ∨ f64IsInf f = true) : f64IsFinite f = false := by
  have hexp : f64Exp f = 0x7FF := by
    obtain h | h := h <;> exact of_decide_eq_true (Bool.and_eq_true_iff.1 h).1
  simp [f64IsFinite, hexp]

/-- Settles O33: each fault is the check's answer, and ENC_NOT_FINITE comes after them all. -/
theorem codecFaults : Obligations.CodecFaults := by
  intro s i hi
  have h8 : Config.maxWidth = 8 := rfl
  have h256 : Config.bufSize = 256 := rfl
  refine ⟨fun hw => ?_, fun hlo hhi hs => ?_, fun hlo hhi hs hi' ho => ?_, fun hlo hhi hs ho hr => ?_,
    fun hok hi' ho hv => ?_⟩
  · apply exec_codec_fault hi
    rw [codecCheck, if_pos (by omega)]
  · apply exec_codec_fault hi
    rw [codecCheck, if_neg (by omega), if_pos hs]
  · apply exec_codec_fault hi
    rw [codecCheck, if_neg (by omega), if_neg hs, if_pos ⟨decide_eq_true hi', ho⟩]
  · have hovf : ¬ (decide (i = .encode) = true ∧ s.ovf = 3#2) := by
      rintro ⟨hi', ho'⟩
      obtain rfl | ho := ho
      · exact absurd hi' (by decide)
      · exact ho ho'
    apply exec_codec_fault hi
    rw [codecCheck, if_neg (by omega), if_neg hs, if_neg hovf, if_pos (by omega)]
  · subst hi'
    exact exec_encode_notFinite (codecCheck_encode_eq_none hok ho) (f64IsFinite_eq_false hv)

/-! ### The limit of a field -/

section
variable {p : BitVec 64} {w : Nat} {o : BitVec 2}

theorem limitField_of_fits (hinf : f64IsInf p = false) (hlo : 0 ≤ f64Trunc p) (hhi : f64Trunc p < 2 ^ (8 * w)) :
    limitField p w o = some (f64Trunc p).toNat := by
  rw [limitField, if_neg (Bool.eq_false_iff.1 hinf), if_pos ⟨hlo, hhi⟩]

theorem limitField_of_inf (hinf : f64IsInf p = true) :
    limitField p w o = if o = 2#2 then some (if f64Neg p then 0 else 2 ^ (8 * w) - 1) else none := by
  rw [limitField, if_pos hinf]

theorem limitField_of_outside (hinf : f64IsInf p = false) (hout : f64Trunc p < 0 ∨ 2 ^ (8 * w) ≤ f64Trunc p) :
    limitField p w o = if o = 1#2 then some (f64Trunc p % 2 ^ (8 * w)).toNat
      else if o = 2#2 then some (if f64Trunc p < 0 then 0 else 2 ^ (8 * w) - 1) else none := by
  rw [limitField, if_neg (Bool.eq_false_iff.1 hinf), if_neg (by omega)]

end

/-! ### The bytes of a field -/

theorem fieldPlace_lt {s : State} {i : Nat} (hi : i < s.width) : fieldPlace s i < s.width := by
  unfold fieldPlace; split <;> omega

/-- The places of a field are its significances, in order or reversed: either way the exchange is its own inverse. -/
theorem fieldPlace_fieldPlace {s : State} {i : Nat} (hi : i < s.width) : fieldPlace s (fieldPlace s i) = i := by
  unfold fieldPlace; split <;> omega

/-- Putting a field's bytes in the chosen order exchanges significance and place (R124). -/
theorem ordered_getElem? {s : State} {bs : List Byte} (hlen : bs.length = s.width) {i : Nat} (hi : i < s.width) :
    (if s.orderBig then bs.reverse else bs)[i]? = bs[fieldPlace s i]? := by
  unfold fieldPlace
  split
  · rw [List.getElem?_reverse (by omega), hlen]
  · rfl

theorem fieldBytes_length (n w : Nat) (big : Bool) : (fieldBytes n w big).length = w := by
  unfold fieldBytes; split <;> simp

theorem fieldBytes_getElem (n : Nat) {s : State} {i : Nat} (hi : i < (fieldBytes n s.width s.orderBig).length) :
    (fieldBytes n s.width s.orderBig)[i] = BitVec.ofNat 8 (n / 256 ^ fieldPlace s i) := by
  have hw : i < s.width := hi.trans_eq (fieldBytes_length _ _ _)
  rw [← leBytes_getElem n s.width _ ((fieldPlace_lt hw).trans_eq (leBytes_length _ _).symm),
    ← Option.some_inj, ← List.getElem?_eq_getElem, ← List.getElem?_eq_getElem]
  exact ordered_getElem? (leBytes_length _ _) hw

/-- Reading a field's bytes back gives the field (R127). -/
theorem fieldValue_fieldBytes {n w : Nat} (hn : n < 2 ^ (8 * w)) (big : Bool) :
    fieldValue (fieldBytes n w big) big = n := by
  have hle : leValue (leBytes n w) = n := by
    rw [leValue_leBytes, Nat.mod_eq_of_lt (by rwa [pow_mul] at hn)]
  cases big
  · exact hle
  · rw [fieldValue, fieldBytes, if_pos rfl, if_pos rfl, List.reverse_reverse, hle]

/-- A field's value is the sum of its bytes by significance (R125). -/
theorem leValue_eq_sum {bs : List Byte} {n : Nat} {f : Nat → Byte} (hlen : bs.length = n)
    (hf : ∀ i, i < n → bs[i]? = some (f i)) : leValue bs = ∑ i ∈ Finset.range n, (f i).toNat * 256 ^ i := by
  subst hlen
  induction bs generalizing f with
  | nil => rfl
  | cons b bs ih =>
    have hb : b = f 0 := by simpa using hf 0 (by simp)
    have htail : ∀ i, i < bs.length → bs[i]? = some (f (i + 1)) := fun i hi => by
      simpa using hf (i + 1) (by simpa using hi)
    rw [leValue, ih htail, List.length_cons, Finset.sum_range_succ', ← hb, Finset.mul_sum, pow_zero, mul_one, add_comm]
    congr 1
    exact Finset.sum_congr rfl fun i _ => by rw [pow_succ]; ring

theorem Memory.readBytes_getElem? (m : Memory) (a : Nat) {n i : Nat} (hi : i < n) :
    (m.readBytes a n)[i]? = some (m.read (a + i)) := by
  rw [List.getElem?_eq_getElem (by simpa using hi), Memory.readBytes_getElem]

/-- The value DECODE computes is R125's sum over its source buffer. -/
theorem decodedField_eq_fieldSum (s : State) : decodedField s = fieldSum s (s.buffer s.decodeSource) := by
  have hlen : ((s.buffer s.decodeSource).readBytes s.offset s.width).length = s.width := Memory.readBytes_length _ _ _
  refine leValue_eq_sum (by split <;> simp) fun i hi => ?_
  rw [ordered_getElem? hlen hi, Memory.readBytes_getElem? _ _ (fieldPlace_lt hi)]

theorem decodedField_lt (s : State) : decodedField s < 2 ^ (8 * s.width) := by
  rw [decodedField, fieldValue, pow_mul]
  refine (leValue_lt _).trans_eq ?_
  congr 1
  split <;> simp

/-! ### ENCODE -/

/-- `place` writes the byte of significance `fieldPlace s k` at place `k`, and no byte outside the field (R124). -/
theorem replaced_placeField {s : State} (n : Nat) (hwf : s.stage.wf = true) (hrange : s.offset + s.width ≤ 256) :
    Replaced s.stage (placeField n s).stage s.offset s.width fun k => BitVec.ofNat 8 (n / 256 ^ fieldPlace s k) := by
  have hlen := fieldBytes_length n s.width s.orderBig
  have hstored := replaced_writeBytes hwf (hlen.symm ▸ hrange) fun i hi => fieldBytes_getElem n hi
  rwa [hlen] at hstored

/-- ENCODE stores the field the limit answers (R121, R124). -/
theorem encodeStores_of_limitField {s : State} {n : Nat} (hok : CodecConfigOk s) (hovf : s.ovf ≠ 3#2)
    (hf : f64IsFinite s.value = true) (hwf : s.stage.wf = true)
    (hn : limitField (scaledProduct s.value s.scale.toNat) s.width s.ovf = some n) : EncodeStores s n := by
  have hc := codecCheck_encode_eq_none hok hovf
  obtain ⟨-, -, -, hrange⟩ := hok
  obtain ⟨hin, hout⟩ := replaced_placeField n hwf hrange
  refine ⟨(placeField n s).stage, ?_, fun i hi => ?_, hout⟩
  · show execEncode s = _
    simp only [execEncode, hc, hf, hn, if_true, placeField]
  · exact (hin _ (fieldPlace_lt hi)).trans (congrArg (BitVec.ofNat 8 <| n / 256 ^ ·) (fieldPlace_fieldPlace hi))

/-- ENCODE faults where the limit answers no field (R121, R123). -/
theorem exec_encode_overflow {s : State} (hok : CodecConfigOk s) (hovf : s.ovf ≠ 3#2)
    (hf : f64IsFinite s.value = true) (hn : limitField (scaledProduct s.value s.scale.toNat) s.width s.ovf = none) :
    exec .encode s = .next (raiseFault .encOverflow s) := by
  show execEncode s = _
  simp only [execEncode, codecCheck_encode_eq_none hok hovf, hf, hn, if_true]

/-- Settles O31: a product that fits is its own limit. -/
theorem encodeStoresTheField : Obligations.EncodeStoresTheField := by
  intro s hok hovf hf hwf hinf hlo hhi
  exact encodeStores_of_limitField hok hovf hf hwf (limitField_of_fits hinf hlo hhi)

/-- Settles O32, policy by policy. -/
theorem encodeOverflowPolicies : Obligations.EncodeOverflowPolicies := by
  intro s hok hf hwf
  have hstores := fun (n : Nat) (ho : s.ovf ≠ 3#2) => encodeStores_of_limitField (n := n) hok ho hf hwf
  refine ⟨fun hinf => ?_, fun hinf hout => ?_⟩
  · have hlim := limitField_of_inf (w := s.width) (o := s.ovf) hinf
    refine ⟨fun ho => ?_, fun ho hneg => ?_, fun ho hneg => ?_⟩
    · have ho2 : s.ovf ≠ 2#2 := by obtain ho | ho := ho <;> simp [ho]
      have ho3 : s.ovf ≠ 3#2 := by obtain ho | ho := ho <;> simp [ho]
      exact exec_encode_overflow hok ho3 hf (by rw [hlim, if_neg ho2])
    · exact hstores _ (by simp [ho]) (by rw [hlim, if_pos ho, if_pos hneg])
    · exact hstores _ (by simp [ho]) (by rw [hlim, if_pos ho, hneg]; rfl)
  · have hlim := limitField_of_outside (o := s.ovf) hinf hout
    refine ⟨fun ho => ?_, fun ho => ?_, fun ho hneg => ?_, fun ho hneg => ?_⟩
    · exact exec_encode_overflow hok (by simp [ho]) hf (hlim.trans (by simp [ho]))
    · have hres : limitField (scaledProduct s.value s.scale.toNat) s.width s.ovf =
          some (f64Trunc (scaledProduct s.value s.scale.toNat) % 2 ^ (8 * s.width)).toNat := by rw [hlim, if_pos ho]
      exact ⟨_, limitField_lt hres, Int.toNat_of_nonneg (Int.emod_nonneg _ (by positivity)),
        hstores _ (by simp [ho]) hres⟩
    · exact hstores _ (by simp [ho]) (by rw [hlim, if_neg (by simp [ho]), if_pos ho, if_pos hneg])
    · exact hstores _ (by simp [ho]) (by rw [hlim, if_neg (by simp [ho]), if_pos ho, if_neg (by omega)])

/-- What a completed ENCODE was: its checks passed, and the field is what the limit answered (R121). -/
theorem exec_encode_completed {s t : State} (h : exec .encode s = .next t) (hcause : t.cause = .none) :
    CodecConfigOk s ∧ ∃ n, n < 2 ^ (8 * s.width) ∧
      limitField (scaledProduct s.value s.scale.toNat) s.width s.ovf = some n ∧
      t = complete { placeField n s with raw := BitVec.ofNat 64 n } := by
  obtain ⟨c, hc, rfl⟩ | ⟨n, hc, -, hn, rfl⟩ := execEncode_cases h
  · exact absurd hcause hc
  · obtain ⟨hlo, hhi, hscale, -, hrange⟩ := (codecCheck_eq_none_iff true s).1 hc
    exact ⟨⟨hlo, hhi, hscale, hrange⟩, n, limitField_lt hn, hn, rfl⟩

/-! ### DECODE -/

/-- DECODE with its checks passed (R125). -/
theorem exec_decode_ok {s : State} (hok : CodecConfigOk s) : exec .decode s = .next (complete { s with
    raw := BitVec.ofNat 64 (decodedField s), dval := rne64 false (decodedField s) s.scale.toNat }) := by
  show execDecode s = _
  rw [execDecode, codecCheck_decode_eq_none hok]

/-- Settles O34: the source buffer's bytes, joined by significance. -/
theorem decodeReadsTheField : Obligations.DecodeReadsTheField := by
  intro s m hok hm
  have hsrc : s.buffer s.decodeSource = m := by
    simp only [List.mem_cons, List.not_mem_nil, or_false, Prod.mk.injEq] at hm
    obtain ⟨hs, rfl⟩ | ⟨hs, rfl⟩ := hm <;> rw [State.decodeSource, hs] <;> rfl
  have hsum : decodedField s = fieldSum s m := hsrc ▸ decodedField_eq_fieldSum s
  rw [← hsum]
  exact ⟨exec_decode_ok hok, decodedField_lt s⟩

/-- Reading a stored field's bytes back, at the same place and in the same order, gives the field (R127). -/
theorem decodedField_of_placeField {s u : State} {n : Nat} (hwf : s.stage.wf = true) (hrange : s.offset + s.width ≤ 256)
    (hn : n < 2 ^ (8 * s.width)) (hw : u.width = s.width) (hb : u.orderBig = s.orderBig) (ho : u.offset = s.offset)
    (hsrc : u.srcStage = true)
    (hread : ∀ i, i < s.width → u.stage.read (s.offset + i) = (placeField n s).stage.read (s.offset + i)) :
    decodedField u = n := by
  have hlen := fieldBytes_length n s.width s.orderBig
  have hbuf : u.buffer u.decodeSource = u.stage := by rw [State.decodeSource, hsrc]; rfl
  have hback := Memory.readBytes_writeBytes s.stage s.offset (fieldBytes n s.width s.orderBig) hwf (hlen.symm ▸ hrange)
  rw [hlen] at hback
  rw [decodedField, hbuf, hw, hb, ho, Memory.readBytes_congr hread, placeField, hback, fieldValue_fieldBytes hn]

/-- Settles O36: DECODE reads back the bytes ENCODE placed. -/
theorem encodeDecodeRoundTrip : Obligations.EncodeDecodeRoundTrip := by
  intro s t u hwf henc hcause hw hb ho hsrc hscale hread
  obtain ⟨⟨hlo, hhi, -, hrange⟩, n, hn, -, rfl⟩ := exec_encode_completed henc hcause
  have hfield : decodedField u = n := decodedField_of_placeField hwf hrange hn hw hb ho hsrc hread
  have hok : CodecConfigOk u := by rw [CodecConfigOk, hw, ho]; exact ⟨hlo, hhi, hscale, hrange⟩
  exact ⟨_, exec_decode_ok hok, rfl, congrArg (BitVec.ofNat 64) hfield⟩

end Sys2Proof.Machine
end

section
/-! SUPPORT. The codec's numbers: the scaled product, its integer part and its rounding error over the rationals, the
decoded quotient, and the obligations on them (R122, R126, R127). -/

namespace Sys2Proof.Machine

open Sys2Proof

/-! ### The integer part -/

/-- The integer part is the quotient of units, rounded toward zero (R122). -/
theorem f64Trunc_eq_tdiv (p : BitVec 64) : f64Trunc p = (f64Int p).tdiv f64One := by
  unfold f64Trunc f64Int
  split
  · rw [Int.neg_tdiv, Int.ofNat_tdiv]
  · exact Int.ofNat_tdiv _ _

theorem f64Val_nonneg_iff (p : BitVec 64) : 0 ≤ f64Val p ↔ 0 ≤ f64Int p := by
  have hone : (0 : ℚ) < f64One := by exact_mod_cast f64One_pos
  rw [f64Val_eq, le_div_iff₀ hone, zero_mul, Int.cast_nonneg_iff]

theorem f64Trunc_of_nonneg {p : BitVec 64} (h : 0 ≤ f64Val p) : f64Trunc p = ⌊f64Val p⌋ := by
  rw [f64Trunc_eq_tdiv, Int.tdiv_eq_ediv_of_nonneg ((f64Val_nonneg_iff p).1 h), f64Val_eq,
    Rat.floor_intCast_div_natCast]

theorem f64Trunc_of_neg {p : BitVec 64} (h : f64Val p < 0) : f64Trunc p = ⌈f64Val p⌉ := by
  have hint : 0 ≤ -f64Int p := by have := (f64Val_nonneg_iff p).not.1 h.not_ge; omega
  rw [f64Val_eq, Rat.ceil_intCast_div_natCast, ← Int.tdiv_eq_ediv_of_nonneg hint, Int.neg_tdiv, neg_neg,
    f64Trunc_eq_tdiv]

/-- A value lies within one of its integer part. -/
theorem abs_f64Trunc_sub_lt (p : BitVec 64) : |(f64Trunc p : ℚ) - f64Val p| < 1 := by
  obtain h | h := le_or_gt 0 (f64Val p)
  · rw [f64Trunc_of_nonneg h, abs_sub_lt_iff]
    have := Int.floor_le (f64Val p)
    have := Int.lt_floor_add_one (f64Val p)
    constructor <;> linarith
  · rw [f64Trunc_of_neg h, abs_sub_lt_iff]
    have := Int.le_ceil (f64Val p)
    have := Int.ceil_lt_add_one (f64Val p)
    constructor <;> linarith

/-! ### The scaled product -/

/-- `val(f) · S`, as the sign and the quotient that `scaledProduct` rounds. -/
theorem f64Val_mul_eq (f : BitVec 64) (S : Nat) :
    f64Val f * S = (if f64Neg f then -1 else 1) * (((f64Units f * S : Nat) : ℚ) / f64One) := by
  rw [f64Val_eq, f64Int]
  split <;> push_cast <;> ring

/-- Settles O30: the product is one rounding, and truncation is the floor or the ceiling by the sign. -/
theorem scaledProductIsRounded : Obligations.ScaledProductIsRounded := by
  intro f S _
  refine ⟨?_, fun _ => ?_⟩
  · rw [f64Val_mul_eq]
    exact roundingIsNearestEven (f64Neg f) _ f64One f64One_pos
  · split
    · next h => exact f64Trunc_of_nonneg h
    · next h => exact f64Trunc_of_neg (not_le.1 h)

/-! ### The decoded quotient -/

/-- A quotient of a number below `2^64` is below the limit of binary64 (R11, R126). -/
theorem div_lt_f64Limit {n d : Nat} (hn : n < 2 ^ 64) (hd : 0 < d) : (n : ℚ) / d < f64Limit := by
  have hpow : (2 : ℚ) ^ 64 ≤ f64Limit := by
    have hdouble : (2 : ℚ) ^ 1024 = 2 ^ 1023 + 2 ^ 1023 := by rw [← two_mul, ← pow_succ']
    have hsub : (2 : ℚ) ^ 970 ≤ 2 ^ 1023 := pow_le_pow_right₀ one_le_two (by decide)
    have hbound : (2 : ℚ) ^ 64 ≤ 2 ^ 1023 := pow_le_pow_right₀ one_le_two (by decide)
    rw [f64Limit, hdouble, add_sub_assoc]
    exact le_add_of_le_of_nonneg hbound (sub_nonneg.2 hsub)
  calc (n : ℚ) / d ≤ n := div_le_self (Nat.cast_nonneg n) (by exact_mod_cast hd)
    _ < 2 ^ 64 := by exact_mod_cast hn
    _ ≤ f64Limit := hpow

/-- A field of at most eight bytes fits RAW (R34). -/
theorem toNat_ofNat_field {n w : Nat} (hw : w ≤ 8) (hn : n < 2 ^ (8 * w)) : (BitVec.ofNat 64 n).toNat = n :=
  (BitVec.toNat_ofNat n 64).trans (Nat.mod_eq_of_lt (hn.trans_le (Nat.pow_le_pow_right two_pos (by omega))))

/-- Settles O35: the field is below `2^64`, so its quotient is below the limit. -/
theorem decodedValueIsRoundedQuotient : Obligations.DecodedValueIsRoundedQuotient := by
  intro s t hok ht
  rw [exec_decode_ok hok] at ht
  cases ht
  have hpos := hok.scale_pos
  obtain ⟨-, hw, -, -⟩ := hok
  have hraw := toNat_ofNat_field hw (decodedField_lt s)
  have hround := roundingIsNearestEven false (decodedField s) s.scale.toNat hpos
  rw [if_neg Bool.false_ne_true, one_mul] at hround
  refine ⟨?_, ?_, ?_⟩
  · show IsRne64 (((BitVec.ofNat 64 (decodedField s)).toNat : ℚ) / s.scale.toNat) _
    rw [hraw]
    exact hround
  · refine rne64_finite hpos false (div_lt_f64Limit ?_ hpos)
    rw [← hraw]
    exact BitVec.isLt _
  · exact f64Neg_rne64 _ _ _

/-! ### The rounding error of a product -/

/-- A whole number of units is rounded by at most one part in `2^53`: below `2^53` it is exact, and from there up its
significand has 53 bits. -/
theorem roundedUnits_relative_error (k d : Nat) (hd : 0 < d) :
    |(roundedUnits (k * d) d : ℤ) - k| * 2 ^ 53 ≤ k := by
  obtain ⟨-, hge⟩ := excessBits_bounds (k * d) d hd
  obtain ⟨hlow, hhigh, -⟩ := significand_error (k * d) d hd
  rw [roundedUnits]
  generalize significand (k * d) d = m at *
  generalize excessBits (k * d / d) = e at *
  have hlow' : 2 * (m * 2 ^ e) ≤ 2 * k + 2 ^ e :=
    Nat.le_of_mul_le_mul_right (by linarith : 2 * (m * 2 ^ e) * d ≤ (2 * k + 2 ^ e) * d) hd
  have hhigh' : 2 * k ≤ 2 * (m * 2 ^ e) + 2 ^ e :=
    Nat.le_of_mul_le_mul_right (by linarith : 2 * k * d ≤ (2 * (m * 2 ^ e) + 2 ^ e) * d) hd
  obtain rfl | he := Nat.eq_zero_or_pos e
  · have hexact : m * 2 ^ 0 = k := by omega
    rw [hexact, sub_self, abs_zero, zero_mul]
    exact Int.natCast_nonneg k
  · have hbinade : 2 ^ 52 * 2 ^ e ≤ k := by
      rw [← pow_add]; exact Nat.le_of_mul_le_mul_right (hge he.ne') hd
    generalize m * 2 ^ e = r at *
    generalize 2 ^ e = g at *
    obtain h | h := abs_cases ((r : ℤ) - k) <;> omega

/-- The relative error of a magnitude is that of the signed number, in whatever unit both are counted. -/
theorem abs_signed_sub_le (neg : Bool) {r k c u : ℚ} (hu : 0 < u) (hc : 0 < c) (hk : 0 ≤ k) (h : |r - k| * c ≤ k) :
    |(if neg then -1 else 1) * (r / u) - (if neg then -1 else 1) * (k / u)| ≤
      |(if neg then -1 else 1) * (k / u)| / c := by
  have hsign : |(if neg then -1 else 1 : ℚ)| = 1 := by cases neg <;> simp
  rw [← mul_sub, ← sub_div, abs_mul, abs_mul, hsign, one_mul, one_mul, abs_div, abs_div, abs_of_pos hu,
    abs_of_nonneg hk, div_right_comm, div_le_div_iff_of_pos_right hu, le_div_iff₀ hc]
  exact h

/-- Below the limit the value of `rne64` is the rounded units, with the sign of the real. -/
theorem f64Val_rne64 {num den : Nat} (hden : 0 < den) (neg : Bool) (h : (num : ℚ) / den < f64Limit) :
    f64Val (rne64 neg num den) = (if neg then -1 else 1) * ((roundedUnits (num * f64One) den : ℚ) / f64One) := by
  rw [f64Val_eq, f64Int_rne64 hden neg h, ← mul_div_assoc, Int.cast_mul, Int.cast_natCast]
  cases neg <;> simp

/-- Only a product below the limit is finite (R122). -/
theorem lt_f64Limit_of_finite {neg : Bool} {num den : Nat} (hden : 0 < den)
    (hfin : f64IsFinite (rne64 neg num den) = true) : (num : ℚ) / den < f64Limit := by
  refine lt_of_not_ge fun hge => ?_
  rw [rne64_of_ge hden neg hge] at hfin
  cases neg <;> exact absurd hfin (by decide)

/-- A finite scaled product is off by at most one part in `2^53`: where binary64 loses precision to subnormals the
product is a whole number of units, and exact (R127). -/
theorem scaledProduct_relative_error {f : BitVec 64} {S : Nat} (hfin : f64IsFinite (scaledProduct f S) = true) :
    |f64Val (scaledProduct f S) - f64Val f * S| ≤ |f64Val f * S| / 2 ^ 53 := by
  have hone : (0 : ℚ) < f64One := by exact_mod_cast f64One_pos
  have herr : |(roundedUnits (f64Units f * S * f64One) f64One : ℚ) - (f64Units f * S : Nat)| * 2 ^ 53 ≤
      (f64Units f * S : Nat) := by
    have hint := Int.cast_le (R := ℚ).2 (roundedUnits_relative_error (f64Units f * S) f64One f64One_pos)
    push_cast at hint ⊢
    exact hint
  rw [scaledProduct, f64Val_rne64 f64One_pos _ (lt_f64Limit_of_finite f64One_pos hfin), f64Val_mul_eq]
  exact abs_signed_sub_le (f64Neg f) hone (by positivity) (by positivity) herr

/-! ### One unit of resolution -/

/-- A finite pattern is no infinity. -/
theorem f64IsInf_of_finite {p : BitVec 64} (h : f64IsFinite p = true) : f64IsInf p = false := by
  have hexp : f64Exp p ≠ 0x7FF := of_decide_eq_true h
  simp [f64IsInf, hexp]

/-- RAW of a completed ENCODE whose product fits is the product's integer part (R121, R123). -/
theorem exec_encode_raw {s t : State} (h : exec .encode s = .next t) (hcause : t.cause = .none)
    (hfin : f64IsFinite (scaledProduct s.value s.scale.toNat) = true)
    (hlo : 0 ≤ f64Trunc (scaledProduct s.value s.scale.toNat))
    (hhi : f64Trunc (scaledProduct s.value s.scale.toNat) < 2 ^ (8 * s.width)) :
    (t.raw.toNat : ℤ) = f64Trunc (scaledProduct s.value s.scale.toNat) := by
  obtain ⟨⟨-, hw, -, -⟩, n, hn, hlim, rfl⟩ := exec_encode_completed h hcause
  rw [limitField_of_fits (f64IsInf_of_finite hfin) hlo hhi] at hlim
  rw [complete_raw, toNat_ofNat_field hw hn, ← Option.some_inj.1 hlim, Int.toNat_of_nonneg hlo]

/-- The distance of a quotient over `S` from `v`, from the distance of its numerator from `v · S`. -/
theorem abs_div_sub_eq {n v S : ℚ} (hS : 0 < S) : |n / S - v| = |n - v * S| / S := by
  rw [div_sub' hS.ne', mul_comm S v, abs_div, abs_of_pos hS]

/-- Settles O37: truncation moves the product by less than one, and rounding by one part in `2^53`. -/
theorem encodeIsWithinOneUnit : Obligations.EncodeIsWithinOneUnit := by
  intro s t ht hcause hfin hlo hhi
  have hraw : (t.raw.toNat : ℚ) = (f64Trunc (scaledProduct s.value s.scale.toNat) : ℚ) := by
    exact_mod_cast exec_encode_raw ht hcause hfin hlo hhi
  obtain ⟨hok, -⟩ := exec_encode_completed ht hcause
  have hS : (0 : ℚ) < s.scale.toNat := by exact_mod_cast hok.scale_pos
  have htrunc := abs_f64Trunc_sub_lt (scaledProduct s.value s.scale.toNat)
  have hround := scaledProduct_relative_error hfin
  rw [hraw, abs_div_sub_eq hS]
  refine ⟨fun hexact => ⟨fun hv => ?_, ?_⟩, ?_⟩
  · have hp : 0 ≤ f64Val (scaledProduct s.value s.scale.toNat) := hexact ▸ mul_nonneg hv hS.le
    rw [← hexact, f64Trunc_of_nonneg hp, Int.self_sub_floor]
    exact ⟨Int.fract_nonneg _, Int.fract_lt_one _⟩
  · rw [← hexact]
    exact div_lt_div_of_pos_right htrunc hS
  · have hsum : |(f64Trunc (scaledProduct s.value s.scale.toNat) : ℚ) - f64Val s.value * s.scale.toNat| <
        1 + |f64Val s.value * s.scale.toNat| / 2 ^ 53 :=
      (abs_sub_le _ _ _).trans_lt (add_lt_add_of_lt_of_le htrunc hround)
    calc _ < (1 + |f64Val s.value * s.scale.toNat| / 2 ^ 53) / s.scale.toNat := div_lt_div_of_pos_right hsum hS
      _ = 1 / s.scale.toNat + |f64Val s.value| / 2 ^ 53 := by
        rw [abs_mul, abs_of_pos hS]
        field_simp

end Sys2Proof.Machine
end

section
/-! SUPPORT. The checksum: CKSUM's answers, why one changed byte shows, what the parsers do with a frame whose local
checks pass, and the obligations of R140 to R143. -/

namespace Sys2Proof.Machine

open Sys2Proof

/-! ### CKSUM -/

theorem cksSource_of_cksBuf {s : State} {b : BufId}
    (hb : (s.cksBuf, b) ∈ [(0#2, BufId.stage), (1#2, .txbuf), (2#2, .rxbuf)]) : s.cksBuf ≠ 3#2 ∧ s.cksSource = b := by
  simp only [List.mem_cons, Prod.mk.injEq, List.not_mem_nil, or_false] at hb
  obtain ⟨hbuf, rfl⟩ | ⟨hbuf, rfl⟩ | ⟨hbuf, rfl⟩ := hb <;> simp [State.cksSource, hbuf]

/-- CKSUM with its checks passed (R141). -/
theorem exec_cksum_ok {s : State} (hbuf : s.cksBuf ≠ 3#2) (hrange : s.cksStart + s.cksLen ≤ 256) :
    exec .cksum s = .next (complete { s with cks := (s.buffer s.cksSource).sum8 s.cksStart s.cksLen }) := by
  show execCksum s = _
  rw [execCksum, if_neg hbuf, Config.bufSize, if_neg (Nat.not_lt.2 hrange)]

/-- Settles O38: the two checks in their order, then the sum over the buffer BUF names. -/
theorem cksumSumsTheRange : Obligations.CksumSumsTheRange := by
  intro s
  refine ⟨fun hbuf => ?_, fun hbuf hrange => ?_, fun b hb hrange => ?_⟩
  · show execCksum s = _
    rw [execCksum, if_pos hbuf]
  · show execCksum s = _
    rw [execCksum, if_neg hbuf, Config.bufSize, if_pos hrange]
  · obtain ⟨hbuf, rfl⟩ := cksSource_of_cksBuf hb
    exact ⟨_, exec_cksum_ok hbuf hrange, Memory.sum8_toNat _ _ _⟩

/-! ### One changed byte -/

/-- A byte sum is the byte at one index of the range plus the sum over the other indices. -/
theorem Memory.byteSum_eq_read_add (m : Memory) {a n k : Nat} (hlo : a ≤ k) (hhi : k < a + n) :
    m.byteSum a n = (m.read k).toNat + ∑ i ∈ (Finset.range n).erase (k - a), (m.read (a + i)).toNat := by
  have hmem : k - a ∈ Finset.range n := Finset.mem_range.2 (by omega)
  rw [Memory.byteSum_eq_sum, ← Finset.add_sum_erase _ _ hmem, Nat.add_sub_cancel' hlo]

/-- Settles O39: the rest of the sum is common to both buffers, and two bytes congruent modulo 256 are equal. -/
theorem checksumDetectsOneByte : Obligations.ChecksumDetectsOneByte := by
  intro m m' a n k hlo hhi hdiff hsame hsum
  have hrest : ∑ i ∈ (Finset.range n).erase (k - a), (m.read (a + i)).toNat =
      ∑ i ∈ (Finset.range n).erase (k - a), (m'.read (a + i)).toNat :=
    Finset.sum_congr rfl fun i hi => by
      have hne := Finset.ne_of_mem_erase hi
      rw [hsame (a + i) (by omega)]
  have hmod : m.byteSum a n ≡ m'.byteSum a n [MOD 256] := by
    simpa [Memory.sum8, Nat.ModEq] using congrArg BitVec.toNat hsum
  rw [Memory.byteSum_eq_read_add m hlo hhi, Memory.byteSum_eq_read_add m' hlo hhi, hrest] at hmod
  have hbyte : (m.read k).toNat = (m'.read k).toNat :=
    hmod.add_right_cancel'.eq_of_lt_of_lt (m.read k).isLt (m'.read k).isLt
  exact hdiff (BitVec.eq_of_toNat_eq hbyte)

/-! ### The parsers on a valid frame -/

theorem Memory.sum8_eq_iff (m : Memory) (a n : Nat) (b : Byte) : m.sum8 a n = b ↔ sumMod256 m a n = b.toNat := by
  rw [← BitVec.toNat_inj, Memory.sum8_toNat, sumMod256]

theorem sumMod256_congr {m m' : Memory} {a n : Nat} (h : ∀ i, i < n → m.read (a + i) = m'.read (a + i)) :
    sumMod256 m a n = sumMod256 m' a n :=
  congrArg (· % 256) (Finset.sum_congr rfl fun i hi => by rw [h i (Finset.mem_range.1 hi)])

/-- PARSE_LOAD on a frame whose local checks pass: only the status byte decides (R202, R204). -/
theorem exec_parseLoad_valid {s : State} (h : ValidLoadFrame s) : exec .parseLoad s =
    if classifyLoad (s.rxbuf.read 3) = .success then acceptResponse .success (s.rxbuf.read 3) s
    else rejectResponse (classifyLoad (s.rxbuf.read 3)) false (s.rxbuf.read 3) 0#4 s := by
  obtain ⟨hlen, hsync, hsum, hecho⟩ := h
  have hcks := (Memory.sum8_eq_iff _ _ _ _).2 hsum
  have hmax : ¬ Config.bufSize < s.rxlen.toNat := by rw [hlen]; decide
  change _ = Config.loadFrameLen at hlen
  change _ = Config.loadSync at hsync
  show execParseLoad s = _
  simp only [execParseLoad]
  rw [if_neg hmax, if_neg (not_not_intro hlen), if_neg (not_not_intro hsync), if_neg (not_not_intro hcks),
    if_neg (not_not_intro hecho)]

/-- PARSE_METER on a frame whose local checks pass, with RES_OFS in the opcode-and-payload region: only the result byte
decides (R207). -/
theorem exec_parseMeter_valid {s : State} (h : ValidMeterFrame s) (hlo : 3 ≤ s.resOfs)
    (hhi : s.resOfs + 4 ≤ s.rxlen.toNat) : exec .parseMeter s =
    if classifyMeter (s.rxbuf.read (s.rxlen.toNat - s.resOfs)) = .unknownError then
      rejectResponse .unknownError false (s.rxbuf.read (s.rxlen.toNat - s.resOfs)) 0#4 s
    else acceptResponse (classifyMeter (s.rxbuf.read (s.rxlen.toNat - s.resOfs)))
      (s.rxbuf.read (s.rxlen.toNat - s.resOfs)) s := by
  obtain ⟨hmin, hmax, hsof, heof, hfield, hsum⟩ := h
  have hcks := (Memory.sum8_eq_iff _ _ _ _).2 hsum
  replace hmax : ¬ Config.bufSize < s.rxlen.toNat := Nat.not_lt.2 hmax
  change _ = Config.meterSof at hsof
  change _ = Config.meterEof at heof
  show execParseMeter s = _
  simp only [execParseMeter]
  rw [if_neg hmax, if_neg (by omega), if_neg (not_not_intro hsof), if_neg (not_not_intro heof),
    if_neg (not_not_intro hfield), if_neg (not_not_intro hcks), if_neg (by omega)]

/-- The RESULT of a valid load frame is its status byte's classification. -/
theorem parseLoad_result_of_valid {s : State} (h : ValidLoadFrame s) : ∃ v, exec .parseLoad s = .next v ∧
    v.result = resultOf (classifyLoad (s.rxbuf.read 3)) false (s.rxbuf.read 3) 0#4 := by
  rw [exec_parseLoad_valid h]
  split
  · next hk => exact ⟨_, rfl, by rw [hk]; rfl⟩
  · exact ⟨_, rfl, rfl⟩

/-- The RESULT of a valid meter frame is its result byte's classification. -/
theorem parseMeter_result_of_valid {s : State} (h : ValidMeterFrame s) (hlo : 3 ≤ s.resOfs)
    (hhi : s.resOfs + 4 ≤ s.rxlen.toNat) : ∃ v, exec .parseMeter s = .next v ∧
    v.result = resultOf (classifyMeter (s.rxbuf.read (s.rxlen.toNat - s.resOfs))) false
      (s.rxbuf.read (s.rxlen.toNat - s.resOfs)) 0#4 := by
  rw [exec_parseMeter_valid h hlo hhi]
  split
  · next hk => exact ⟨_, rfl, by rw [hk]; rfl⟩
  · exact ⟨_, rfl, rfl⟩

/-! ### A built frame is valid -/

/-- A BUILD_LOAD that ended without a fault passed its checks (R151). -/
theorem buildLoad_checks {s t : State} (h : exec .buildLoad s = .next t) (hcause : t.cause = .none) :
    1 ≤ s.oplen.toNat ∧ s.oplen.toNat ≤ 23 ∧ (s.addr.toNat ≤ 31 ∨ s.addr = 0xFF#8) := by
  obtain ⟨c, hc, rfl⟩ | ⟨hlo, hhi, haddr, -⟩ := execBuildLoad_cases h
  · exact absurd hcause hc
  · exact ⟨hlo, hhi, (loadAddrOk_iff _).1 haddr⟩

/-- A BUILD_METER that ended without a fault passed its checks (R152). -/
theorem buildMeter_checks {s t : State} (h : exec .buildMeter s = .next t) (hcause : t.cause = .none) :
    2 ≤ s.oplen.toNat ∧ s.oplen.toNat ≤ 250 ∧ 1 ≤ s.addr.toNat ∧ s.addr.toNat ≤ 254 := by
  obtain ⟨c, hc, rfl⟩ | ⟨hlo, hhi, haddr, -⟩ := execBuildMeter_cases h
  · exact absurd hcause hc
  · obtain ⟨hzero, hones⟩ := (meterAddrOk_iff _).1 haddr
    exact ⟨hlo, hhi, by bv_omega, by bv_omega⟩

section
variable {s t u : State} (htx : s.txbuf.wf = true) (hcause : t.cause = .none) (hlen : u.rxlen = t.txlen)
  (hcopy : ∀ k, k < t.txlen.toNat → u.rxbuf.read k = t.txbuf.read k)

include htx hcause hlen hcopy

theorem validLoadFrame_of_built (h : exec .buildLoad s = .next t) (hop : u.valopc = s.stage.read 0) :
    ValidLoadFrame u := by
  obtain ⟨hlo, hhi, haddr⟩ := buildLoad_checks h hcause
  obtain ⟨m, hm, hsync, -, hpayload, -, hsum, -⟩ := buildLoadWritesTheFrame s hlo hhi haddr htx
  cases h.symm.trans hm
  have hread : ∀ k, k < 26 → u.rxbuf.read k = m.read k := hcopy
  refine ⟨by rw [hlen]; rfl, by rw [hread 0 (by decide), hsync], ?_, ?_⟩
  · rw [hread 25 (by decide), hsum]
    exact sumMod256_congr fun i hi => hread _ (by omega)
  · rw [hread 2 (by decide), hop]
    exact hpayload 0 hlo

theorem validMeterFrame_of_built (h : exec .buildMeter s = .next t) : ValidMeterFrame u := by
  obtain ⟨hlo, hhi, haddr, haddr'⟩ := buildMeter_checks h hcause
  obtain ⟨m, hm, hsof, hlenHi, hlenLo, -, -, hsum, heof, -⟩ := buildMeterWritesTheFrame s hlo hhi haddr haddr' htx
  cases h.symm.trans hm
  have htxlen : (BitVec.ofNat 9 (s.oplen.toNat + 6)).toNat = s.oplen.toNat + 6 :=
    (BitVec.toNat_ofNat ..).trans (Nat.mod_eq_of_lt (by omega))
  have hrx : u.rxlen.toNat = s.oplen.toNat + 6 := (congrArg BitVec.toNat hlen).trans htxlen
  have hread : ∀ k, k < s.oplen.toNat + 6 → u.rxbuf.read k = m.read k := fun k hk => hcopy k (hk.trans_eq htxlen.symm)
  rw [ValidMeterFrame, hrx]
  refine ⟨by omega, by omega, by rw [hread 0 (by omega), hsof], ?_, ?_, ?_⟩
  · exact (hread _ (by omega)).trans heof
  · rw [hread 1 (by omega), hread 2 (by omega), hlenHi, hlenLo]
    exact Nat.div_add_mod' _ _
  · rw [hread _ (by omega)]
    exact (sumMod256_congr fun i hi => hread _ (by omega)).trans hsum.symm

end

/-- Settles O45: a built frame meets the parsers' local checks, which leaves the status or result byte. -/
theorem builtFramesAreVerified : Obligations.BuiltFramesAreVerified := by
  intro s t u htx hcause hlen hcopy
  refine ⟨fun h hop => ?_, fun h hlo hhi => ?_⟩
  · exact parseLoad_result_of_valid (validLoadFrame_of_built htx hcause hlen hcopy h hop)
  · exact parseMeter_result_of_valid (validMeterFrame_of_built htx hcause hlen hcopy h) hlo (by rw [hlen]; exact hhi)

end Sys2Proof.Machine
end

section
/-! SUPPORT. The builders as one scheme: the checks on OPLEN and ADDR in their order, then a frame that owes nothing to
what TXBUF held; and the obligations on the builders' faults, inputs and length (R153 to R155). -/

namespace Sys2Proof.Machine

open Sys2Proof

/-! ### A frame owes nothing to what TXBUF held -/

/-- Under a stored list two buffers read the same. -/
theorem read_writeBytes_zero_congr {m m' : Memory} {bs : List Byte} (hm : m.wf = true) (hm' : m'.wf = true)
    (hlen : bs.length ≤ 256) {j : Nat} (hj : j < bs.length) :
    (m.writeBytes 0 bs).read j = (m'.writeBytes 0 bs).read j := by
  rw [Memory.read_writeBytes_zero hm hlen, Memory.read_writeBytes_zero hm' hlen, List.getElem?_eq_getElem hj]
  rfl

section
variable {tx tx' : Memory} {addr : Byte} {bs : List Byte}

theorem read_loadFrame_congr (htx : tx.wf = true) (htx' : tx'.wf = true) (hbs : bs.length ≤ 23) {k : Nat}
    (hk : k < 26) : (loadFrame addr bs tx).read k = (loadFrame addr bs tx').read k := by
  have hbody := loadBody_length addr bs hbs
  rw [read_loadFrame htx hbs, read_loadFrame htx' hbs]
  split
  · exact Memory.sum8_congr fun i hi => read_writeBytes_zero_congr htx htx' (by omega) (by omega)
  · rw [List.getElem?_eq_getElem (by omega)]
    rfl

theorem read_meterFrame_congr (htx : tx.wf = true) (htx' : tx'.wf = true) (hbs : bs.length ≤ 250) {k : Nat}
    (hk : k < bs.length + 6) :
    (meterFrame (bs.length + 6) addr bs tx).read k = (meterFrame (bs.length + 6) addr bs tx').read k := by
  have hbody := meterBody_length (bs.length + 6) addr bs
  rw [read_meterFrame htx rfl hbs, read_meterFrame htx' rfl hbs]
  split
  · rfl
  · split
    · exact Memory.sum8_congr fun i hi => read_writeBytes_zero_congr htx htx' (by omega) (by omega)
    · rw [List.getElem?_eq_getElem (by omega)]
      rfl

end

/-! ### The scheme of a builder -/

/-- A frame builder: the OPLEN and ADDR it takes, the length of its frame, and TXBUF with the frame in it. -/
structure Builder where
  minOplen : Nat
  maxOplen : Nat
  addrOk : Byte → Bool
  frameLen : Nat → Nat
  frame : Byte → List Byte → Memory → Memory
  frameLen_bounds : ∀ n, n ≤ maxOplen → 1 ≤ frameLen n ∧ frameLen n ≤ 256
  frame_congr : ∀ (a : Byte) (bs : List Byte) (tx tx' : Memory) (k : Nat), bs.length ≤ maxOplen →
    tx.wf = true → tx'.wf = true → k < frameLen bs.length → (frame a bs tx).read k = (frame a bs tx').read k

def loadBuilder : Builder where
  minOplen := 1
  maxOplen := 23
  addrOk := loadAddrOk
  frameLen _ := 26
  frame := loadFrame
  frameLen_bounds _ _ := by decide
  frame_congr _ _ _ _ _ hbs htx htx' hk := read_loadFrame_congr htx htx' hbs hk

def meterBuilder : Builder where
  minOplen := 2
  maxOplen := 250
  addrOk := meterAddrOk
  frameLen n := n + 6
  frame a bs := meterFrame (bs.length + 6) a bs
  frameLen_bounds _ _ := by omega
  frame_congr _ _ _ _ _ hbs htx htx' hk := read_meterFrame_congr htx htx' hbs hk

namespace Builder

variable (b : Builder)

/-- The cause a builder ends with, from ADDR and OPLEN: the length checks come before the address check (R153). -/
def fault (a : Byte) (n : Nat) : FaultCause :=
  if n < b.minOplen then .buildOplen
  else if b.maxOplen < n then .buildCapacity
  else if b.addrOk a then .none
  else .buildAddr

/-- The state a builder completes in. -/
def built (s : State) : State :=
  complete { s with
    txbuf := b.frame s.addr (s.stage.readBytes 0 s.oplen.toNat) s.txbuf
    txlen := BitVec.ofNat 9 (b.frameLen s.oplen.toNat) }

def run (s : State) : State :=
  if b.fault s.addr s.oplen.toNat = .none then b.built s else raiseFault (b.fault s.addr s.oplen.toNat) s

section
variable {b} {a : Byte} {n : Nat}

theorem fault_of_lt (h : n < b.minOplen) : b.fault a n = .buildOplen := if_pos h

theorem fault_of_gt (hlo : b.minOplen ≤ n) (h : b.maxOplen < n) : b.fault a n = .buildCapacity := by
  rw [fault, if_neg (Nat.not_lt.2 hlo), if_pos h]

theorem fault_of_bounds (hlo : b.minOplen ≤ n) (hhi : n ≤ b.maxOplen) :
    b.fault a n = if b.addrOk a then .none else .buildAddr := by
  rw [fault, if_neg (Nat.not_lt.2 hlo), if_neg (Nat.not_lt.2 hhi)]

theorem le_maxOplen_of_fault_eq_none (h : b.fault a n = .none) : n ≤ b.maxOplen := by
  unfold fault at h
  split at h
  · cases h
  · split at h
    · cases h
    · next hhi => exact Nat.le_of_not_lt hhi

end

section
variable {b} {s : State}

theorem run_of_fault {c : FaultCause} (h : b.fault s.addr s.oplen.toNat = c) (hc : c ≠ .none) :
    b.run s = raiseFault c s := by
  subst h
  exact if_neg hc

/-- The scheme, check by check: R153's order. -/
theorem next_run : (.next (b.run s) : StepOutcome) =
    if s.oplen.toNat < b.minOplen then .next (raiseFault .buildOplen s)
    else if b.maxOplen < s.oplen.toNat then .next (raiseFault .buildCapacity s)
    else if b.addrOk s.addr then .next (b.built s)
    else .next (raiseFault .buildAddr s) := by
  by_cases hlo : s.oplen.toNat < b.minOplen
  · rw [if_pos hlo, run_of_fault (fault_of_lt hlo) (by decide)]
  · by_cases hhi : b.maxOplen < s.oplen.toNat
    · rw [if_neg hlo, if_pos hhi, run_of_fault (fault_of_gt (Nat.le_of_not_lt hlo) hhi) (by decide)]
    · have hfault := fault_of_bounds (a := s.addr) (Nat.le_of_not_lt hlo) (Nat.le_of_not_lt hhi)
      rw [if_neg hlo, if_neg hhi]
      split
      · next haddr => rw [run, if_pos (hfault.trans (if_pos haddr))]
      · next haddr => rw [run_of_fault (hfault.trans (if_neg haddr)) (by decide)]

theorem run_cause : (b.run s).cause = b.fault s.addr s.oplen.toNat := by
  unfold run
  split
  · next h => exact h.symm
  · rfl

theorem run_eq_built (h : (b.run s).cause = .none) : b.run s = b.built s := if_pos (run_cause.symm.trans h)

theorem oplen_le_of_run_completes (h : (b.run s).cause = .none) : s.oplen.toNat ≤ b.maxOplen :=
  le_maxOplen_of_fault_eq_none (run_cause.symm.trans h)

theorem built_txlen_toNat (hn : s.oplen.toNat ≤ b.maxOplen) :
    (b.built s).txlen.toNat = b.frameLen s.oplen.toNat := by
  obtain ⟨-, hle⟩ := b.frameLen_bounds _ hn
  exact (BitVec.toNat_ofNat ..).trans (Nat.mod_eq_of_lt (by omega))

/-- A builder run twice on equal operands over two buffers (R154). -/
theorem built_congr {u : State} (hs : s.txbuf.wf = true) (hu : u.txbuf.wf = true) (haddr : s.addr = u.addr)
    (hoplen : s.oplen = u.oplen) (hstage : ∀ k, k < s.oplen.toNat → s.stage.read k = u.stage.read k)
    (hn : s.oplen.toNat ≤ b.maxOplen) :
    (b.built s).txlen = (b.built u).txlen ∧
      ∀ k, k < (b.built s).txlen.toNat → (b.built s).txbuf.read k = (b.built u).txbuf.read k := by
  have hbytes : s.stage.readBytes 0 s.oplen.toNat = u.stage.readBytes 0 u.oplen.toNat := by
    rw [← hoplen]
    exact Memory.readBytes_congr fun i hi => by simpa using hstage i hi
  refine ⟨congrArg (fun n : BitVec 9 => BitVec.ofNat 9 (b.frameLen n.toNat)) hoplen, fun k hk => ?_⟩
  rw [built_txlen_toNat hn] at hk
  show (b.frame s.addr _ s.txbuf).read k = (b.frame u.addr _ u.txbuf).read k
  rw [← haddr, ← hbytes]
  exact b.frame_congr _ _ _ _ _ (by simpa using hn) hs hu (by simpa using hk)

end

end Builder

/-! ### The two builders -/

/-- BUILD_LOAD is the scheme at the load dialect's bounds (R151, R153). -/
theorem exec_buildLoad (s : State) : exec .buildLoad s = .next (loadBuilder.run s) := by
  show execBuildLoad s = _
  simp only [execBuildLoad, Builder.next_run, ← Nat.lt_one_iff]
  rfl

/-- BUILD_METER is the scheme at the meter dialect's bounds (R152, R153). -/
theorem exec_buildMeter (s : State) : exec .buildMeter s = .next (meterBuilder.run s) := by
  show execBuildMeter s = _
  simp only [execBuildMeter, Builder.next_run, Builder.built, meterBuilder, Memory.readBytes_length]

theorem exec_builder {i : Instr} (hi : i = .buildLoad ∨ i = .buildMeter) :
    ∃ b : Builder, ∀ s, exec i s = .next (b.run s) := by
  obtain rfl | rfl := hi
  · exact ⟨loadBuilder, exec_buildLoad⟩
  · exact ⟨meterBuilder, exec_buildMeter⟩

/-- Settles O42: each fault is the scheme's first failing check. -/
theorem builderFaults : Obligations.BuilderFaults := by
  intro s
  simp only [exec_buildLoad, exec_buildMeter]
  refine ⟨fun h => ?_, fun h => ?_, fun hlo hhi haddr haddr' => ?_, fun h => ?_, fun h => ?_, fun hlo hhi haddr => ?_⟩
  · rw [Builder.run_of_fault (Builder.fault_of_lt (Nat.lt_one_iff.2 h)) (by decide)]
  · rw [Builder.run_of_fault (Builder.fault_of_gt (Nat.one_le_of_lt h) h) (by decide)]
  · have hbad : ¬ loadAddrOk s.addr = true := by
      rw [loadAddrOk_iff]
      bv_omega
    rw [Builder.run_of_fault ((Builder.fault_of_bounds hlo hhi).trans (if_neg hbad)) (by decide)]
  · rw [Builder.run_of_fault (Builder.fault_of_lt h) (by decide)]
  · rw [Builder.run_of_fault (Builder.fault_of_gt (Nat.le_of_lt (Nat.lt_of_le_of_lt (by decide) h)) h) (by decide)]
  · have hbad : ¬ meterAddrOk s.addr = true := by
      rw [meterAddrOk_iff]
      tauto
    rw [Builder.run_of_fault ((Builder.fault_of_bounds hlo hhi).trans (if_neg hbad)) (by decide)]

/-- Settles O43: the cause is the scheme's on ADDR and OPLEN, and the frame overwrites what TXBUF held. -/
theorem buildersAreDeterministic : Obligations.BuildersAreDeterministic := by
  intro i s u t v hi hs hu haddr hoplen hstage hst huv
  obtain ⟨b, hb⟩ := exec_builder hi
  obtain rfl : b.run s = t := by simpa [hb] using hst
  obtain rfl : b.run u = v := by simpa [hb] using huv
  have hcause : (b.run s).cause = (b.run u).cause := by
    rw [Builder.run_cause, Builder.run_cause, haddr, hoplen]
  refine ⟨hcause, fun hnone => ?_⟩
  rw [Builder.run_eq_built hnone, Builder.run_eq_built (hcause.symm.trans hnone)]
  exact Builder.built_congr hs hu haddr hoplen hstage (Builder.oplen_le_of_run_completes hnone)

/-! ### The length of a frame -/

/-- The embedded length of a built meter frame is TXLEN (R155). -/
theorem buildMeter_embedded_length {s t : State} (htx : s.txbuf.wf = true) (h : exec .buildMeter s = .next t)
    (hcause : t.cause = .none) :
    (t.txbuf.read 1).toNat * 256 + (t.txbuf.read 2).toNat = t.txlen.toNat ∧ t.txlen.toNat = s.oplen.toNat - 2 + 8 := by
  obtain ⟨hlo, hhi, haddr, haddr'⟩ := buildMeter_checks h hcause
  obtain ⟨m, hm, -, hlenHi, hlenLo, -⟩ := buildMeterWritesTheFrame s hlo hhi haddr haddr' htx
  cases h.symm.trans hm
  have htxlen : (BitVec.ofNat 9 (s.oplen.toNat + 6)).toNat = s.oplen.toNat + 6 :=
    (BitVec.toNat_ofNat ..).trans (Nat.mod_eq_of_lt (by omega))
  refine ⟨?_, htxlen.trans (by omega)⟩
  calc (m.read 1).toNat * 256 + (m.read 2).toNat
      = (s.oplen.toNat + 6) / 256 * 256 + (s.oplen.toNat + 6) % 256 := by rw [hlenHi, hlenLo]
    _ = s.oplen.toNat + 6 := Nat.div_add_mod' _ _
    _ = _ := htxlen.symm

/-- SEND with a legal TXLEN (R173). -/
theorem exec_send_ok {s : State} (h : txlenOk s = true) : exec .send s = .next (complete (transmit s)) := if_pos h

/-- SEND after a builder that completed hands over TXLEN bytes (R155, R173). -/
theorem Builder.send_after_built {b : Builder} {s : State} (hn : s.oplen.toNat ≤ b.maxOplen) :
    ∃ (v : State) (bs : List Byte), exec .send (b.built s) = .next v ∧ v.cause = .none ∧
      v.env.sent = s.env.sent ++ [bs] ∧ bs.length = (b.built s).txlen.toNat := by
  have hok : txlenOk (b.built s) = true := by
    rw [txlenOk_iff, Builder.built_txlen_toNat hn]
    exact b.frameLen_bounds _ hn
  exact ⟨_, _, exec_send_ok hok, rfl, rfl, Memory.readBytes_length _ _ _⟩

/-- Settles O44: a load frame's length is fixed, a meter frame embeds its own, and both are legal for SEND. -/
theorem embeddedLengthIsTransmittedLength : Obligations.EmbeddedLengthIsTransmittedLength := by
  intro i s t hi htx h hcause
  refine ⟨?_, ?_, ?_⟩
  · rintro rfl
    obtain ⟨c, hc, rfl⟩ | ⟨-, -, -, rfl⟩ := execBuildLoad_cases h
    · exact absurd hcause hc
    · rfl
  · rintro rfl
    exact buildMeter_embedded_length htx h hcause
  · obtain ⟨b, hb⟩ := exec_builder hi
    obtain rfl : b.run s = t := by simpa [hb] using h
    rw [Builder.run_eq_built hcause]
    exact Builder.send_after_built (Builder.oplen_le_of_run_completes hcause)

end Sys2Proof.Machine
end

section
/-! SUPPORT. The link engine one step at a time: what is handed to the link, what a received answer makes of RXBUF, an
equation for each outcome of a WAIT and a DRAIN step, and the obligations on single steps (R172 to R180). -/

namespace Sys2Proof.Machine

open Sys2Proof

/-! ### The engine's turn -/

/-- When the engine's turn comes, the step is its turn, on the state with the event taken off the agenda. -/
theorem step_of_engineNext {s : State} (h : EngineNext s) : step s = engineTurn (popAgenda s) := by
  cases hn : s.env.agenda with
  | nil =>
    rw [popAgenda_of_empty hn]
    simp [step, hn]
  | cons e es =>
    obtain rfl : e = .engine := by simpa [EngineNext, hn] using h
    simp [step_engine hn, popAgenda, hn]

/-- RECV and QUERY dispatch on the phase as the engine does, so in every phase they run as decoded. -/
theorem engineStep_of_decoded {i : Instr} {s : State} (hi : decodeWord s.cmd = .ok i)
    (h : s.ph = .start ∨ i = .recv ∨ i = .query) : engineStep s = exec i s := by
  cases hph : s.ph with
  | start => simp only [engineStep, hph, hi]
  | recvStart | wait | drain =>
    have hrun : i = .recv ∨ i = .query := by simpa [hph] using h
    obtain rfl | rfl := hrun <;> simp only [engineStep, exec, execRecv, execQuery, hph]

/-- Settles O4: the engine's turn while BUSY = 1 is its step, and that is the decoded command's. -/
theorem stepRunsTheDecodedCommand : Obligations.StepRunsTheDecodedCommand := by
  intro s i hnext hbusy hi hph
  calc step s = engineTurn (popAgenda s) := step_of_engineNext hnext
    _ = engineStep (popAgenda s) := if_pos hbusy
    _ = exec i (popAgenda s) := engineStep_of_decoded hi hph

/-! ### Transmitting -/

theorem not_txlenOk {s : State} (h : s.txlen.toNat = 0 ∨ 256 < s.txlen.toNat) : ¬ txlenOk s = true := by
  rw [txlenOk_iff]
  omega

/-- The list `transmit` hands over is `TXBUF[0..TXLEN−1]` in index order (R173). -/
theorem txBytes_spec (s : State) : (s.txbuf.readBytes 0 s.txlen.toNat).length = s.txlen.toNat ∧
    ∀ (k : Nat) (h : k < (s.txbuf.readBytes 0 s.txlen.toNat).length),
      (s.txbuf.readBytes 0 s.txlen.toNat)[k] = s.txbuf.read k :=
  ⟨Memory.readBytes_length _ _ _, fun k h => by rw [Memory.readBytes_getElem, Nat.zero_add]⟩

/-- Settles O46: TXLEN decides between the transmission and RANGE. -/
theorem sendTransmits : Obligations.SendTransmits := by
  intro s
  refine ⟨fun hlo hhi => ?_, fun h => ?_⟩
  · exact ⟨_, exec_send_ok ((txlenOk_iff s).2 ⟨hlo, hhi⟩), txBytes_spec s⟩
  · exact if_neg (not_txlenOk h)

/-- QUERY's first step is decided by TXLEN (R175). -/
theorem exec_query_start {s : State} (hph : s.ph = .start) : exec .query s =
    if txlenOk s then .next { transmit s with ph := .recvStart } else .next (raiseFault .range s) := by
  simp only [exec, execQuery, hph]

/-- Settles O47: as SEND, but the command goes on in phase RECV_START. -/
theorem queryTransmits : Obligations.QueryTransmits := by
  intro s hph
  rw [exec_query_start hph]
  refine ⟨fun hlo hhi => ?_, fun h => ?_⟩
  · exact ⟨_, if_pos ((txlenOk_iff s).2 ⟨hlo, hhi⟩), txBytes_spec s⟩
  · exact if_neg (not_txlenOk h)

/-! ### Receiving -/

/-- Settles O48: both phases select `recv_start()`. -/
theorem receivePhaseStarts : Obligations.ReceivePhaseStarts := by
  rintro i s (⟨rfl, hph⟩ | ⟨rfl, hph⟩)
  · show execRecv s = _
    rw [execRecv, hph]
    rfl
  · show execQuery s = _
    rw [execQuery, hph]
    rfl

theorem exec_of_wait {i : Instr} {s : State} (hi : i = .recv ∨ i = .query) (hph : s.ph = .wait) :
    exec i s = waitStep s := by
  obtain rfl | rfl := hi <;> simp only [exec, execRecv, execQuery, hph]

theorem exec_of_drain {i : Instr} {s : State} (hi : i = .recv ∨ i = .query) (hph : s.ph = .drain) :
    exec i s = drainStep s := by
  obtain rfl | rfl := hi <;> simp only [exec, execRecv, execQuery, hph]

/-- Bytes that all fit are stored at RXLEN and counted (R179). -/
theorem appendBytes_of_fits {bs : List Byte} {s : State} (hwf : s.rxbuf.wf = true)
    (h : s.rxlen.toNat + bs.length ≤ 256) :
    ∃ m : Memory, appendBytes bs s = .ok { s with rxbuf := m, rxlen := BitVec.ofNat 9 (s.rxlen.toNat + bs.length) } ∧
      Replaced s.rxbuf m s.rxlen.toNat bs.length (fun k => bs.getD k 0x00#8) := by
  have hfit : fitCount bs s = bs.length := Nat.min_eq_left (Nat.le_sub_of_add_le' h)
  refine ⟨s.rxbuf.writeBytes s.rxlen.toNat bs, ?_, replaced_writeBytes hwf h fun i hi => by simp [hi]⟩
  rw [appendBytes, if_neg (by omega), storeReceived, hfit, List.take_length]

/-- Bytes that do not all fit fill RXBUF and overrun (R179). -/
theorem appendBytes_of_overruns {bs : List Byte} {s : State} (hwf : s.rxbuf.wf = true) (hrx : s.rxlen.toNat ≤ 256)
    (h : 256 < s.rxlen.toNat + bs.length) :
    ∃ m : Memory, appendBytes bs s =
        .error (raiseFault .rxOverrun (setLink .overrun { s with rxbuf := m, rxlen := 256#9 })) ∧
      Replaced s.rxbuf m s.rxlen.toNat (256 - s.rxlen.toNat) (fun k => bs.getD k 0x00#8) := by
  have hroom : 256 - s.rxlen.toNat ≤ bs.length := by omega
  have hfit : fitCount bs s = 256 - s.rxlen.toNat := Nat.min_eq_right hroom
  have hlen : (bs.take (256 - s.rxlen.toNat)).length = 256 - s.rxlen.toNat := List.length_take_of_le hroom
  have hstored := replaced_writeBytes (f := fun k => bs.getD k 0x00#8) hwf (hlen.symm ▸ (Nat.add_sub_cancel' hrx).le)
    fun i hi => by simp [(hi.trans_eq hlen).trans_le hroom]
  rw [hlen] at hstored
  refine ⟨_, ?_, hstored⟩
  rw [appendBytes, if_pos (by omega), storeReceived, hfit, Nat.add_sub_cancel' hrx]

/-! ### The WAIT step -/

section
variable {s t : State} {bs : List Byte}

theorem waitStep_timeout (h : s.maxRetries ≤ s.retryCnt.toNat) :
    waitStep s = .next (raiseFault .timeout (setLink .timeout (awaitPoll s))) := if_pos h

theorem waitStep_retry (h : s.retryCnt.toNat < s.maxRetries) (hp : pollAnswer s.env = []) :
    waitStep s = .next { afterPoll (awaitPoll s) with retryCnt := s.retryCnt + 1#16 } := by
  replace hp : pollAnswer (awaitPoll s).env = [] := hp
  simp only [waitStep, hp]
  exact if_neg (Nat.not_le.2 h)

/-- The first bytes of a reply, all of which fit, start the draining (R177). -/
theorem waitStep_of_append_ok (h : s.retryCnt.toNat < s.maxRetries) (hp : pollAnswer s.env = bs) (hne : bs ≠ [])
    (hok : appendBytes bs (afterPoll (awaitPoll s)) = .ok t) :
    waitStep s = .next { setLink .draining t with ph := .drain } := by
  obtain ⟨b, bs, rfl⟩ := List.exists_cons_of_ne_nil hne
  replace hp : pollAnswer (awaitPoll s).env = b :: bs := hp
  simp only [waitStep, hp, hok]
  exact if_neg (Nat.not_le.2 h)

theorem waitStep_of_append_error (h : s.retryCnt.toNat < s.maxRetries) (hp : pollAnswer s.env = bs) (hne : bs ≠ [])
    (herr : appendBytes bs (afterPoll (awaitPoll s)) = .error t) : waitStep s = .next t := by
  obtain ⟨b, bs, rfl⟩ := List.exists_cons_of_ne_nil hne
  replace hp : pollAnswer (awaitPoll s).env = b :: bs := hp
  simp only [waitStep, hp, herr]
  exact if_neg (Nat.not_le.2 h)

/-- A retry that is made counts without wrapping: MAX_RETRIES has the width of RETRY_CNT. -/
theorem retryCnt_succ_toNat (h : s.retryCnt.toNat < s.maxRetries) :
    (s.retryCnt + 1#16).toNat = s.retryCnt.toNat + 1 := by
  have hmax : s.maxRetries < 2 ^ 16 := BitVec.isLt _
  exact BitVec.toNat_add_of_lt (by simp; omega)

/-! ### The DRAIN step -/

theorem drainStep_gap (hp : pollAnswer s.env = []) :
    drainStep s = .next (complete (setLink .received (afterPoll (awaitPoll s)))) := by
  replace hp : pollAnswer (awaitPoll s).env = [] := hp
  simp only [drainStep, hp]

theorem drainStep_of_append_ok (hp : pollAnswer s.env = bs) (hne : bs ≠ [])
    (hok : appendBytes bs (afterPoll (awaitPoll s)) = .ok t) : drainStep s = .next t := by
  obtain ⟨b, bs, rfl⟩ := List.exists_cons_of_ne_nil hne
  replace hp : pollAnswer (awaitPoll s).env = b :: bs := hp
  simp only [drainStep, hp, hok]

theorem drainStep_of_append_error (hp : pollAnswer s.env = bs) (hne : bs ≠ [])
    (herr : appendBytes bs (afterPoll (awaitPoll s)) = .error t) : drainStep s = .next t := by
  obtain ⟨b, bs, rfl⟩ := List.exists_cons_of_ne_nil hne
  replace hp : pollAnswer (awaitPoll s).env = b :: bs := hp
  simp only [drainStep, hp, herr]

end

/-- Settles O49: the budget, then the poll's answer, then the room left in RXBUF decide. -/
theorem waitStepOutcomes : Obligations.WaitStepOutcomes := by
  intro i s hi hph
  rw [exec_of_wait hi hph]
  refine ⟨waitStep_timeout, fun h hp => ?_, fun bs h hp hne hwf => ⟨fun hfits => ?_, fun hrx hover => ?_⟩⟩
  · exact ⟨_, retryCnt_succ_toNat h, waitStep_retry h hp⟩
  · obtain ⟨m, hok, hm⟩ := appendBytes_of_fits (s := afterPoll (awaitPoll s)) hwf hfits
    exact ⟨m, waitStep_of_append_ok h hp hne hok, hm⟩
  · obtain ⟨m, herr, hm⟩ := appendBytes_of_overruns (s := afterPoll (awaitPoll s)) hwf hrx hover
    exact ⟨m, waitStep_of_append_error h hp hne herr, hm⟩

/-- Settles O50: the poll's answer, then the room left in RXBUF decide. -/
theorem drainStepOutcomes : Obligations.DrainStepOutcomes := by
  intro i s hi hph
  rw [exec_of_drain hi hph]
  refine ⟨drainStep_gap, fun bs hp hne hwf => ⟨fun hfits => ?_, fun hrx hover => ?_⟩⟩
  · obtain ⟨m, hok, hm⟩ := appendBytes_of_fits (s := afterPoll (awaitPoll s)) hwf hfits
    exact ⟨m, drainStep_of_append_ok hp hne hok, hm⟩
  · obtain ⟨m, herr, hm⟩ := appendBytes_of_overruns (s := afterPoll (awaitPoll s)) hwf hrx hover
    exact ⟨m, drainStep_of_append_error hp hne herr, hm⟩

/-! ### Who transmits -/

/-- A host write hands nothing to the link (R170). -/
theorem WriteEffect.sent_eq {v : Word} {s u : State} (h : WriteEffect v s u) : u.env.sent = s.env.sent := by
  cases h with
  | window b i bs _ => rw [setBuffer_env]
  | _ => rfl

theorem waitStep_sent {s t : State} (h : waitStep s = .next t) : t.env.sent = s.env.sent := by
  obtain ⟨-, rfl⟩ | ⟨-, -, rfl⟩ | ⟨b, bs, -, -, -, rfl⟩ | ⟨b, bs, -, -, -, rfl⟩ := waitStep_cases h
  all_goals rfl

theorem drainStep_sent {s t : State} (h : drainStep s = .next t) : t.env.sent = s.env.sent := by
  obtain ⟨-, rfl⟩ | ⟨b, bs, -, -, rfl⟩ | ⟨b, bs, -, -, rfl⟩ := drainStep_cases h
  all_goals rfl

/-- A command's first step that hands bytes to the link is SEND's or QUERY's, and it hands over TXBUF (R184). -/
theorem exec_start_sent {i : Instr} {s t : State} (hph : s.ph = .start) (h : exec i s = .next t)
    (hne : t.env.sent ≠ s.env.sent) :
    (i = .send ∨ i = .query) ∧ txlenOk s = true ∧ t.env.sent = (transmit s).env.sent := by
  by_cases hsend : i = .send
  · subst hsend
    obtain rfl | ⟨hok, rfl⟩ := execSend_cases h
    · exact absurd rfl hne
    · exact ⟨.inl rfl, hok, rfl⟩
  by_cases hquery : i = .query
  · subst hquery
    obtain ⟨-, rfl⟩ | ⟨-, hok, rfl⟩ | ⟨hw, -⟩ | ⟨hw, -⟩ | ⟨hw, -⟩ := execQuery_cases h
    · exact absurd rfl hne
    · exact ⟨.inr rfl, hok, rfl⟩
    all_goals simp [hph] at hw
  by_cases hrecv : i = .recv
  · subst hrecv
    obtain ⟨-, rfl⟩ | ⟨hw, -⟩ | ⟨hw, -⟩ := execRecv_cases h
    · exact absurd rfl hne
    all_goals simp [hph] at hw
  obtain ⟨-, -, -, -, -, -, -, hlink, -⟩ := exec_frame i h
  obtain ⟨-, -, -, -, -, -, henv⟩ := hlink hsend hrecv hquery
  exact absurd (congrArg Environment.sent henv) hne

theorem engineStep_sent {s t : State} (h : engineStep s = .next t) (hne : t.env.sent ≠ s.env.sent) :
    s.ph = .start ∧ (decodeWord s.cmd = .ok .send ∨ decodeWord s.cmd = .ok .query) ∧ txlenOk s = true ∧
      t.env.sent = (transmit s).env.sent := by
  obtain ⟨hs, i, hi, hx⟩ | ⟨-, -, rfl⟩ | ⟨-, rfl⟩ | ⟨-, hw⟩ | ⟨-, hd⟩ := engineStep_cases h
  · obtain ⟨rfl | rfl, hok, hsent⟩ := exec_start_sent hs hx hne
    · exact ⟨hs, .inl hi, hok, hsent⟩
    · exact ⟨hs, .inr hi, hok, hsent⟩
  · exact absurd rfl hne
  · exact absurd rfl hne
  · exact absurd (waitStep_sent hw) hne
  · exact absurd (drainStep_sent hd) hne

/-- Settles O24: no event but the engine's touches what was sent, reset included, and of its steps only the START step
of SEND or QUERY does. -/
theorem onlySendAndQueryTransmit : Obligations.OnlySendAndQueryTransmit := by
  intro s t ht hne
  obtain ⟨acc, -, rfl⟩ | ⟨-, rfl⟩ | ⟨-, rfl⟩ | ⟨he, hturn⟩ := step_cases ht
  · obtain ⟨v, u, e, d, hu, hresp⟩ := hostAccess_effect acc (popAgenda s)
    rw [hresp] at hne
    exact absurd hu.sent_eq hne
  · exact absurd rfl hne
  · exact absurd rfl hne
  · obtain ⟨-, rfl⟩ | ⟨hb, hs⟩ := engineTurn_cases hturn
    · exact absurd rfl hne
    · obtain ⟨hph, hcmd, hok, hsent⟩ := engineStep_sent hs hne
      obtain ⟨hlen, hbytes⟩ := txBytes_spec s
      obtain ⟨hlo, hhi⟩ := (txlenOk_iff s).1 hok
      exact ⟨hb, he, hph, hcmd, _, hsent, hlen, hlo, hhi, hbytes⟩

end Sys2Proof.Machine
end

section
/-! SUPPORT. Runs of a receive phase: the retries of a silent link in one lemma, how long a phase can last, and the
obligations of R182 and R183. -/

namespace Sys2Proof.Machine

open Sys2Proof

/-! ### Steps of a run -/

/-- The engine is running a command and nothing else is scheduled. -/
def RunningAlone (s : State) : Prop := s.env.agenda = [] ∧ s.status.busy = true

theorem RunningAlone.step_eq {s : State} (h : RunningAlone s) : step s = engineStep s := by
  obtain ⟨hagenda, hbusy⟩ := h
  exact step_of_running hagenda hbusy

theorem RunningAlone.step_wait {s : State} (h : RunningAlone s) (hph : s.ph = .wait) : step s = waitStep s := by
  rw [h.step_eq, engineStep, hph]

theorem RunningAlone.step_drain {s : State} (h : RunningAlone s) (hph : s.ph = .drain) : step s = drainStep s := by
  rw [h.step_eq, engineStep, hph]

/-- A run goes on by a WAIT step. -/
theorem RunsTo.wait {k : Nat} {s u t : State} (hrun : RunsTo k s u) (h : RunningAlone u) (hph : u.ph = .wait)
    (ht : waitStep u = .next t) : RunsTo (k + 1) s t :=
  runsTo_add hrun ((runsTo_succ ((h.step_wait hph).trans ht)).2 ((runsTo_zero t t).2 rfl))

/-- A run goes on by a DRAIN step. -/
theorem RunsTo.drain {k : Nat} {s u t : State} (hrun : RunsTo k s u) (h : RunningAlone u) (hph : u.ph = .drain)
    (ht : drainStep u = .next t) : RunsTo (k + 1) s t :=
  runsTo_add hrun ((runsTo_succ ((h.step_drain hph).trans ht)).2 ((runsTo_zero t t).2 rfl))

theorem JustAccepted.runningAlone {i : Instr} {s : State} (h : JustAccepted i s) : RunningAlone s := by
  obtain ⟨hagenda, hbusy, -, -⟩ := h
  exact ⟨hagenda, hbusy⟩

/-- The first step of a command just accepted is its own (R172). -/
theorem JustAccepted.step_eq {i : Instr} {s : State} (h : JustAccepted i s) : step s = exec i s := by
  obtain ⟨hagenda, hbusy, hph, hcmd⟩ := h
  exact (step_of_running hagenda hbusy).trans (engineStep_of_decoded hcmd (.inl hph))

/-- A RECV just accepted starts its receive phase (R174). -/
theorem JustAccepted.step_recv {s : State} (h : JustAccepted .recv s) : step s = .next (recvStart s) := by
  have hstep := h.step_eq
  obtain ⟨-, -, hph, -⟩ := h
  exact hstep.trans (receivePhaseStarts .recv s (.inl ⟨rfl, hph⟩))

/-! ### A silent link -/

/-- `s` after some retries: RETRY_CNT is `count`, the poll-delay timer `timer`, the link has `answers` left after
`polls` polls, and `clock` ticks have passed. Nothing else has changed (R177, R180). -/
def retried (count : BitVec 16) (timer : Nat) (answers : List (List Byte)) (polls clock : Nat) (s : State) : State :=
  { s with
    retryCnt := count, timer := timer
    env := { s.env with answers := answers, polls := polls, clock := clock } }

theorem pollAnswer_of_cons {e : Environment} {bs : List Byte} {rest : List (List Byte)} (h : e.answers = bs :: rest) :
    pollAnswer e = bs := by
  rw [pollAnswer, h]

/-- One empty poll with budget left (R177). -/
theorem step_retry {s : State} {rest : List (List Byte)} (h : RunningAlone s) (hph : s.ph = .wait)
    (hmax : s.retryCnt.toNat < s.maxRetries) (hans : s.env.answers = [] :: rest) :
    step s = .next (retried (s.retryCnt + 1#16) (pollDelay s) rest (s.env.polls + 1) (s.env.clock + s.timer) s) := by
  have htail : rest = s.env.answers.tail := by rw [hans, List.tail_cons]
  rw [h.step_wait hph, waitStep_retry hmax (pollAnswer_of_cons hans), htail]
  rfl

/-- `n` empty polls with budget for them: `n` retries, of which each but the first waits out a poll delay, and the last
leaves one to be waited out (R177, R180). -/
theorem RunningAlone.runsTo_retried {n : Nat} {s : State} {rest : List (List Byte)} (h : RunningAlone s)
    (hph : s.ph = .wait) (hmax : s.retryCnt.toNat + n ≤ s.maxRetries)
    (hans : s.env.answers = List.replicate n [] ++ rest) :
    ∃ count timer clock, RunsTo n s (retried count timer rest (s.env.polls + n) clock s) ∧
      count.toNat = s.retryCnt.toNat + n ∧ clock + timer = s.env.clock + s.timer + n * pollDelay s := by
  induction n generalizing s with
  | zero =>
    refine ⟨s.retryCnt, s.timer, s.env.clock, (runsTo_zero _ _).2 ?_, rfl, by simp⟩
    rw [← show s.env.answers = rest from hans]
    rfl
  | succ n ih =>
    have hlt : s.retryCnt.toNat < s.maxRetries := by omega
    have hcount := retryCnt_succ_toNat hlt
    have hstep := step_retry h hph hlt hans
    obtain ⟨count, timer, clock, hrun, hn, hclock⟩ := ih
      (s := retried (s.retryCnt + 1#16) (pollDelay s) (List.replicate n [] ++ rest) (s.env.polls + 1)
        (s.env.clock + s.timer) s) h hph (by show (s.retryCnt + 1#16).toNat + n ≤ s.maxRetries; omega) rfl
    refine ⟨count, timer, clock, (runsTo_succ hstep).2 ?_, ?_, ?_⟩
    · rw [Nat.add_comm n 1, ← Nat.add_assoc]
      exact hrun
    · calc count.toNat = (s.retryCnt + 1#16).toNat + n := hn
        _ = s.retryCnt.toNat + (n + 1) := by omega
    · calc clock + timer = s.env.clock + s.timer + pollDelay s + n * pollDelay s := hclock
        _ = s.env.clock + s.timer + (n + 1) * pollDelay s := by ring

/-! ### A reply in one piece -/

/-- With budget left, a poll that brings the whole reply and one that brings nothing end a receive phase RECEIVED
(R177, R178). -/
theorem RunsTo.received {k : Nat} {s u : State} {bs : List Byte} {rest : List (List Byte)} (hrun : RunsTo k s u)
    (h : RunningAlone u) (hph : u.ph = .wait) (hmax : u.retryCnt.toNat < u.maxRetries) (hwf : u.rxbuf.wf = true)
    (hans : u.env.answers = bs :: [] :: rest) (hne : bs ≠ []) (hfits : u.rxlen.toNat + bs.length ≤ 256) :
    ∃ m : Memory, RunsTo (k + 2) s (complete { u with
        rxbuf := m, rxlen := BitVec.ofNat 9 (u.rxlen.toNat + bs.length), ph := .drain, timer := pollDelay u
        status := { u.status with state := .received }
        env := { u.env with
          answers := rest, polls := u.env.polls + 2, clock := u.env.clock + u.timer + pollDelay u } }) ∧
      Replaced u.rxbuf m u.rxlen.toNat bs.length (fun k => bs.getD k 0x00#8) := by
  obtain ⟨m, hok, hm⟩ := appendBytes_of_fits (s := afterPoll (awaitPoll u)) hwf hfits
  have hleft : u.env.answers.tail = [] :: rest := by rw [hans, List.tail_cons]
  have hdata := hrun.wait h hph (waitStep_of_append_ok hmax (pollAnswer_of_cons hans) hne hok)
  have hend := hdata.drain h rfl (drainStep_gap (pollAnswer_of_cons hleft))
  obtain rfl : u.env.answers.tail.tail = rest := by rw [hleft, List.tail_cons]
  exact ⟨m, hend, hm⟩

/-- A RECV just accepted, after its start step and `n` empty polls (R174, R177). -/
theorem JustAccepted.runsTo_retried {n : Nat} {s : State} {rest : List (List Byte)} (h : JustAccepted .recv s)
    (hmax : n ≤ s.maxRetries) (hans : s.env.answers = List.replicate n [] ++ rest) :
    ∃ count timer clock, RunsTo (n + 1) s (retried count timer rest (s.env.polls + n) clock (recvStart s)) ∧
      count.toNat = n ∧ clock + timer = s.env.clock + n * pollDelay s := by
  obtain ⟨count, timer, clock, hrun, hn, hclock⟩ :=
    RunningAlone.runsTo_retried (s := recvStart s) h.runningAlone rfl ((Nat.zero_add n).trans_le hmax) hans
  exact ⟨count, timer, clock, (runsTo_succ h.step_recv).2 hrun, hn.trans (Nat.zero_add n), hclock⟩

/-- Settles O52: as many retries as the budget allows, and then the TIMEOUT step, which waits out the last delay. -/
theorem retryBoundTimesOut : Obligations.RetryBoundTimesOut := by
  intro s N rest h hans hmax
  have hsplit : s.env.answers = List.replicate s.maxRetries [] ++ (List.replicate (N - s.maxRetries) [] ++ rest) := by
    rw [hans, ← List.append_assoc, List.replicate_append_replicate, Nat.add_sub_cancel' hmax]
  obtain ⟨count, timer, clock, hrun, hn, hclock⟩ := h.runsTo_retried le_rfl hsplit
  have hend := hrun.wait h.runningAlone rfl (waitStep_timeout hn.ge)
  exact ⟨_, hend, rfl, rfl, rfl, rfl, hn, rfl, rfl, rfl, hclock.ge⟩

/-- Settles O51: N retries, then the reply, stored from index 0 because the phase starts with RXLEN = 0, and the gap. -/
theorem retryBoundReceives : Obligations.RetryBoundReceives := by
  intro s N bs rest h hwf hans hne hlen hmax
  obtain ⟨count, timer, clock, hrun, hn, -⟩ := h.runsTo_retried (Nat.le_of_succ_le hmax) hans
  have hempty : (retried count timer (bs :: [] :: rest) (s.env.polls + N) clock (recvStart s)).rxlen.toNat = 0 := rfl
  obtain ⟨m, hend, hin, hout⟩ :=
    hrun.received h.runningAlone rfl (hn.trans_lt hmax) hwf rfl hne ((Nat.zero_add _).trans_le hlen)
  simp only [hempty, Nat.zero_add] at hend hin hout
  refine ⟨_, hend, rfl, rfl, rfl, rfl, hn, ?_, fun k hk => ?_, fun k hk => hout k (.inr hk), rfl, rfl⟩
  · exact (BitVec.toNat_ofNat ..).trans (Nat.mod_eq_of_lt (by omega))
  · exact (hin k hk).trans (List.getD_eq_getElem _ _ hk)

/-! ### Termination -/

/-- Within `n` steps the command ends. -/
def EndsWithin (n : Nat) (s : State) : Prop := ∃ k, k ≤ n ∧ ∃ t, RunsTo k s t ∧ Ended t

theorem Ended.endsWithin {t : State} (h : Ended t) (n : Nat) : EndsWithin n t :=
  ⟨0, Nat.zero_le n, t, (runsTo_zero t t).2 rfl, h⟩

theorem EndsWithin.step_before {n : Nat} {s u : State} (hu : EndsWithin n u) (h : step s = .next u) :
    EndsWithin (n + 1) s := by
  obtain ⟨k, hk, t, hrun, ht⟩ := hu
  exact ⟨k + 1, Nat.succ_le_succ hk, t, (runsTo_succ h).2 hrun, ht⟩

theorem EndsWithin.exists_run {n : Nat} {s : State} (h : EndsWithin n s) :
    ∃ k, k ≤ n ∧ ∃ t, RunsTo k s t ∧ t.status.busy = false ∧ t.status.done = true := by
  obtain ⟨k, hk, t, hrun, hidle, hdone, -⟩ := h
  exact ⟨k, hk, t, hrun, hidle, hdone⟩

theorem EndsWithin.mono {m n : Nat} {s : State} (h : EndsWithin m s) (hmn : m ≤ n) : EndsWithin n s := by
  obtain ⟨k, hk, hrun⟩ := h
  exact ⟨k, hk.trans hmn, hrun⟩

/-- The variant of R183: how many steps of a receive phase come after the next one at most, from each phase but START.
A WAIT step spends a retry or stores the first byte, and a DRAIN step that does not end the command stores another. -/
def laterSteps (s : State) : Nat :=
  match s.ph with
  | .start => 0
  | .recvStart => s.maxRetries + 257
  | .wait => s.maxRetries - s.retryCnt.toNat + 256
  | .drain => 256 - s.rxlen.toNat

theorem laterSteps_recvStart {s : State} (hph : s.ph = .recvStart) : laterSteps s = s.maxRetries + 257 := by
  rw [laterSteps, hph]

theorem laterSteps_wait {s : State} (hph : s.ph = .wait) :
    laterSteps s = s.maxRetries - s.retryCnt.toNat + 256 := by
  rw [laterSteps, hph]

theorem laterSteps_drain {s : State} (hph : s.ph = .drain) : laterSteps s = 256 - s.rxlen.toNat := by
  rw [laterSteps, hph]

/-- The step leaves a receive phase running, closer to its end. -/
def Advances (s t : State) : Prop := t.ph ≠ .start ∧ laterSteps t < laterSteps s

theorem advances_recvStart {s : State} (hph : s.ph = .recvStart) : Advances s (recvStart s) := by
  refine ⟨nofun, ?_⟩
  rw [laterSteps_recvStart hph]
  exact Nat.lt_succ_self _

theorem waitStep_advances {s t : State} (hph : s.ph = .wait) (ht : waitStep s = .next t) : Ended t ∨ Advances s t := by
  rw [Advances, laterSteps_wait hph]
  obtain ⟨-, rfl⟩ | ⟨hlt, -, rfl⟩ | ⟨b, bs, hlt, -, hfit, rfl⟩ | ⟨b, bs, -, -, -, rfl⟩ := waitStep_cases ht
  · exact .inl (ended_raiseFault _ (by decide))
  · refine .inr ⟨by simp [hph], (laterSteps_wait (by exact hph)).trans_lt ?_⟩
    show s.maxRetries - (s.retryCnt + 1#16).toNat + 256 < _
    rw [retryCnt_succ_toNat hlt]
    omega
  · obtain ⟨hlen, -⟩ := storeReceived_rxlen_toNat (s := afterPoll (awaitPoll s)) hfit
    refine .inr ⟨nofun, (laterSteps_drain rfl).trans_lt ?_⟩
    show 256 - (storeReceived (b :: bs) (afterPoll (awaitPoll s))).rxlen.toNat < _
    rw [hlen, List.length_cons]
    omega
  · exact .inl (ended_raiseFault _ (by decide))

theorem drainStep_advances {s t : State} (hph : s.ph = .drain) (ht : drainStep s = .next t) :
    Ended t ∨ Advances s t := by
  rw [Advances, laterSteps_drain hph]
  obtain ⟨-, rfl⟩ | ⟨b, bs, -, hfit, rfl⟩ | ⟨b, bs, -, -, rfl⟩ := drainStep_cases ht
  · exact .inl (ended_complete _)
  · obtain ⟨hlen, hle⟩ := storeReceived_rxlen_toNat (s := afterPoll (awaitPoll s)) hfit
    refine .inr ⟨by simp [storeReceived, hph], (laterSteps_drain (by exact hph)).trans_lt ?_⟩
    rw [List.length_cons, afterPoll_rxlen, awaitPoll_rxlen] at hlen hle
    omega
  · exact .inl (ended_raiseFault _ (by decide))

/-- Outside START every engine step ends the command or brings it closer to its end (R177, R178, R183). -/
theorem engineStep_advances {s t : State} (hph : s.ph ≠ .start) (ht : engineStep s = .next t) :
    Ended t ∨ Advances s t := by
  obtain ⟨hs, -⟩ | ⟨hs, -⟩ | ⟨hr, rfl⟩ | ⟨hw, hx⟩ | ⟨hd, hx⟩ := engineStep_cases ht
  · exact absurd hs hph
  · exact absurd hs hph
  · exact .inr (advances_recvStart hr)
  · exact waitStep_advances hw hx
  · exact drainStep_advances hd hx

theorem engineStep_next (s : State) : ∃ t, engineStep s = .next t := by
  unfold engineStep
  split
  · split
    · exact exec_next _ s
    · exact ⟨_, rfl⟩
  · exact ⟨_, rfl⟩
  · exact waitStep_next s
  · exact drainStep_next s

/-- With nothing scheduled an engine step that does not end the command leaves it running alone. -/
theorem RunningAlone.of_engineStep {s t : State} (h : RunningAlone s) (ht : engineStep s = .next t) :
    Ended t ∨ RunningAlone t := by
  obtain ⟨hagenda, hbusy⟩ := h
  obtain hend | ⟨hgo, -⟩ := engineStep_endedOrGoesOn ht
  · exact .inl hend
  · obtain ⟨-, -, -, -, -, -, -, -, -, -, -, -, -, hkept, -⟩ := engineStep_sameHostState ht
    exact .inr ⟨hkept.trans hagenda, hgo.trans hbusy⟩

/-- A receive phase ends: every step that does not end it lowers the variant. -/
theorem RunningAlone.endsWithin {s : State} (h : RunningAlone s) (hph : s.ph ≠ .start) :
    EndsWithin (laterSteps s + 1) s := by
  obtain ⟨t, ht⟩ := engineStep_next s
  have hstep : step s = .next t := h.step_eq.trans ht
  obtain hend | halone := h.of_engineStep ht
  · exact (hend.endsWithin _).step_before hstep
  obtain hend | ⟨hne, hlt⟩ := engineStep_advances hph ht
  · exact (hend.endsWithin _).step_before hstep
  · exact ((halone.endsWithin hne).mono hlt).step_before hstep
termination_by laterSteps s

/-- Settles O53: RECV's first step enters a receive phase; QUERY's faults, or goes to the step before one. -/
theorem receiveTerminates : Obligations.ReceiveTerminates := by
  intro s
  refine ⟨fun h => ?_, fun h => ?_⟩
  · have hrest : EndsWithin (s.maxRetries + 257) (recvStart s) :=
      RunningAlone.endsWithin (s := recvStart s) h.runningAlone nofun
    exact (hrest.step_before h.step_recv).exists_run
  · obtain ⟨t, ht⟩ := exec_next .query s
    have hstep := h.step_eq.trans ht
    have halone := h.runningAlone
    obtain ⟨-, -, hph, -⟩ := h
    rw [exec_query_start hph] at ht
    split at ht
    · cases ht
      have hrest : EndsWithin (s.maxRetries + 258) { transmit s with ph := .recvStart } :=
        RunningAlone.endsWithin (s := { transmit s with ph := .recvStart }) halone nofun
      exact (hrest.step_before hstep).exists_run
    · cases ht
      exact (((ended_raiseFault s (by decide)).endsWithin _).step_before hstep).exists_run

end Sys2Proof.Machine
end

section
/-! SUPPORT. The parsers: the order of their checks in the terms of the frame, how a status or result byte is
classified, why one changed byte of a frame meets a check, and the obligations of R200 to R210. -/

namespace Sys2Proof.Machine

open Sys2Proof

/-- A rejection writes RESULT and ends with RESPONSE (R200). -/
theorem rejectResponse_eq (k : Kind) (l : Bool) (b : Byte) (d : BitVec 4) (s : State) :
    rejectResponse k l b d s = .next (raiseFault .response { s with result := resultOf k l b d }) := rfl

/-- A parser's normal end writes RESULT with LOCAL and DETAIL 0 (R200). -/
theorem acceptResponse_eq (k : Kind) (b : Byte) (s : State) :
    acceptResponse k b s = .next (complete { s with result := resultOf k false b 0#4 }) := rfl

/-! ### The order of the checks -/

/-- PARSE_LOAD's local checks (R202), with the checksum as the sum of R140. -/
theorem exec_parseLoad_checks (s : State) : exec .parseLoad s =
    if 256 < s.rxlen.toNat then .next (raiseFault .range s)
    else if s.rxlen.toNat ≠ 26 then rejectResponse .frameError true 0x00#8 1#4 s
    else if s.rxbuf.read 0 ≠ 0xAA#8 then rejectResponse .frameError true 0x00#8 2#4 s
    else if sumMod256 s.rxbuf 0 25 ≠ (s.rxbuf.read 25).toNat then
      rejectResponse .checksumError true (s.rxbuf.read 3) 3#4 s
    else if s.rxbuf.read 2 ≠ s.valopc then rejectResponse .echoMismatch true (s.rxbuf.read 3) 4#4 s
    else if classifyLoad (s.rxbuf.read 3) = .success then acceptResponse .success (s.rxbuf.read 3) s
    else rejectResponse (classifyLoad (s.rxbuf.read 3)) false (s.rxbuf.read 3) 0#4 s := by
  simp only [← Memory.sum8_eq_iff, ne_eq]
  rfl

/-- PARSE_METER's local checks (R207), with the checksum as the sum of R140. -/
theorem exec_parseMeter_checks (s : State) : exec .parseMeter s =
    if 256 < s.rxlen.toNat then .next (raiseFault .range s)
    else if s.rxlen.toNat < 8 then rejectResponse .ioError true 0x00#8 1#4 s
    else if s.rxbuf.read 0 ≠ 0x7B#8 then rejectResponse .ioError true 0x00#8 2#4 s
    else if s.rxbuf.read (s.rxlen.toNat - 1) ≠ 0x7D#8 then rejectResponse .ioError true 0x00#8 3#4 s
    else if (s.rxbuf.read 1).toNat * 256 + (s.rxbuf.read 2).toNat ≠ s.rxlen.toNat then
      rejectResponse .ioError true 0x00#8 4#4 s
    else if sumMod256 s.rxbuf 1 (s.rxlen.toNat - 3) ≠ (s.rxbuf.read (s.rxlen.toNat - 2)).toNat then
      rejectResponse .ioError true 0x00#8 5#4 s
    else if s.resOfs < 3 ∨ s.rxlen.toNat - 4 < s.resOfs then rejectResponse .ioError true 0x00#8 6#4 s
    else if classifyMeter (s.rxbuf.read (s.rxlen.toNat - s.resOfs)) = .unknownError then
      rejectResponse .unknownError false (s.rxbuf.read (s.rxlen.toNat - s.resOfs)) 0#4 s
    else acceptResponse (classifyMeter (s.rxbuf.read (s.rxlen.toNat - s.resOfs)))
      (s.rxbuf.read (s.rxlen.toNat - s.resOfs)) s := by
  simp only [← Memory.sum8_eq_iff, ne_eq]
  rfl

/-- Settles O54: each clause follows the chain of checks to the first that fails. -/
theorem parseLoadRejects : Obligations.ParseLoadRejects := by
  intro s
  rw [exec_parseLoad_checks]
  have hmax (hlen : s.rxlen.toNat = 26) : ¬ 256 < s.rxlen.toNat := by omega
  refine ⟨fun h => if_pos h, fun h hlen => ?_, fun hlen hsync => ?_, fun hlen hsync hsum => ?_,
    fun hlen hsync hsum hecho => ?_⟩
  · rw [if_neg (Nat.not_lt.2 h), if_pos hlen, rejectResponse_eq]
  · rw [if_neg (hmax hlen), if_neg (not_not_intro hlen), if_pos hsync, rejectResponse_eq]
  · rw [if_neg (hmax hlen), if_neg (not_not_intro hlen), if_neg (not_not_intro hsync), if_pos hsum, rejectResponse_eq]
  · rw [if_neg (hmax hlen), if_neg (not_not_intro hlen), if_neg (not_not_intro hsync), if_neg (not_not_intro hsum),
      if_pos hecho, rejectResponse_eq]

/-- Settles O56: each clause follows the chain of checks to the first that fails. -/
theorem parseMeterRejects : Obligations.ParseMeterRejects := by
  intro s
  rw [exec_parseMeter_checks]
  refine ⟨fun h => if_pos h, fun hmin => ?_, fun hmin hmax => ?_, fun hvalid hofs => ?_⟩
  · rw [if_neg (by omega), if_pos hmin, rejectResponse_eq]
  · rw [if_neg (Nat.not_lt.2 hmax), if_neg (Nat.not_lt.2 hmin)]
    refine ⟨fun hsof => ?_, fun hsof heof => ?_, fun hsof heof hfield => ?_, fun hsof heof hfield hsum => ?_⟩
    · rw [if_pos hsof, rejectResponse_eq]
    · rw [if_neg (not_not_intro hsof), if_pos heof, rejectResponse_eq]
    · rw [if_neg (not_not_intro hsof), if_neg (not_not_intro heof), if_pos hfield, rejectResponse_eq]
    · rw [if_neg (not_not_intro hsof), if_neg (not_not_intro heof), if_neg (not_not_intro hfield), if_pos hsum,
        rejectResponse_eq]
  · obtain ⟨hmin, hmax, hsof, heof, hfield, hsum⟩ := hvalid
    have hout : s.resOfs < 3 ∨ s.rxlen.toNat - 4 < s.resOfs := by omega
    rw [if_neg (Nat.not_lt.2 hmax), if_neg (Nat.not_lt.2 hmin), if_neg (not_not_intro hsof),
      if_neg (not_not_intro heof), if_neg (not_not_intro hfield), if_neg (not_not_intro hsum), if_pos hout,
      rejectResponse_eq]

/-! ### The classification of a valid frame -/

/-- The error rows of the table of R110. -/
theorem classifyLoad_of_mem {b : Byte} {k : Kind}
    (h : (b, k) ∈ [(0x90#8, Kind.checksumError), (0xA0#8, .parameterError), (0xB0#8, .notExecutable),
      (0xC0#8, .invalidCommand), (0xD0#8, .unknownCommand)]) : classifyLoad b = k ∧ k ≠ .success := by
  simp only [List.mem_cons, Prod.mk.injEq, List.not_mem_nil, or_false] at h
  obtain ⟨rfl, rfl⟩ | ⟨rfl, rfl⟩ | ⟨rfl, rfl⟩ | ⟨rfl, rfl⟩ | ⟨rfl, rfl⟩ := h <;> decide

/-- A status byte outside the table of R110 is an unknown error (R204). -/
theorem classifyLoad_of_not_mem {b : Byte} (h : b ∉ [0x80#8, 0x90#8, 0xA0#8, 0xB0#8, 0xC0#8, 0xD0#8]) :
    classifyLoad b = .unknownError := by
  simp only [List.mem_cons, List.not_mem_nil, or_false, not_or] at h
  obtain ⟨h80, h90, hA0, hB0, hC0, hD0⟩ := h
  rw [classifyLoad, if_neg h80, if_neg h90, if_neg hA0, if_neg hB0, if_neg hC0, if_neg hD0]

/-- A valid load frame whose status byte is not SUCCESS ends with RESPONSE and the byte's kind (R204). -/
theorem exec_parseLoad_error {s : State} (h : ValidLoadFrame s) {k : Kind} (hk : classifyLoad (s.rxbuf.read 3) = k)
    (hne : k ≠ .success) : exec .parseLoad s =
    .next (raiseFault .response { s with result := resultOf k false (s.rxbuf.read 3) 0#4 }) := by
  rw [exec_parseLoad_valid h, hk, if_neg hne, rejectResponse_eq]

/-- Settles O55: 0x80 completes, and the table of R110 gives the kind of every other byte. -/
theorem parseLoadClassifies : Obligations.ParseLoadClassifies := by
  intro s h
  refine ⟨fun hb => ?_, fun b k hmem hb => ?_, fun hmem => ?_⟩
  · rw [exec_parseLoad_valid h, hb, if_pos (by decide), acceptResponse_eq]
  · subst hb
    obtain ⟨hk, hne⟩ := classifyLoad_of_mem hmem
    exact exec_parseLoad_error h hk hne
  · exact exec_parseLoad_error h (classifyLoad_of_not_mem hmem) nofun

/-- Settles O57: 0x00 and 0x01 complete with their kinds, and every other byte is unknown. -/
theorem parseMeterClassifies : Obligations.ParseMeterClassifies := by
  intro s h hlo hhi
  rw [exec_parseMeter_valid h hlo hhi]
  refine ⟨fun hb => ?_, fun hb => ?_, fun hb0 hb1 => ?_⟩
  · rw [hb, if_neg (by decide), acceptResponse_eq]; rfl
  · rw [hb, if_neg (by decide), acceptResponse_eq]; rfl
  · have hk : classifyMeter (s.rxbuf.read (s.rxlen.toNat - s.resOfs)) = .unknownError := by
      rw [classifyMeter, if_neg hb0, if_neg hb1]
    rw [if_pos hk, rejectResponse_eq]

/-! ### One changed byte of a frame -/

/-- A checksum that holds fails once one byte is changed, be it a summed byte or the checksum byte itself (R209). -/
theorem sumMod256_ne_of_one_byte {m m' : Memory} {a n c k : Nat} (hsum : sumMod256 m a n = (m.read c).toNat)
    (hc : a + n ≤ c) (hk : (a ≤ k ∧ k < a + n) ∨ k = c) (hdiff : m'.read k ≠ m.read k)
    (hsame : ∀ j, j ≠ k → m'.read j = m.read j) : sumMod256 m' a n ≠ (m'.read c).toNat := by
  rw [← Memory.sum8_eq_iff] at hsum
  rw [Ne, ← Memory.sum8_eq_iff]
  obtain ⟨hlo, hhi⟩ | rfl := hk
  · rw [hsame c (by omega), ← hsum]
    exact checksumDetectsOneByte m' m a n k hlo hhi hdiff hsame
  · rw [Memory.sum8_congr fun i hi => hsame (a + i) (by omega), hsum]
    exact hdiff.symm

/-- Settles O58: byte 0 is covered by the sync check, and every other byte by the checksum. -/
theorem corruptedLoadFrameIsRejected : Obligations.CorruptedLoadFrameIsRejected := by
  rintro s u k ⟨hlen, hsync, hsum, -⟩ hk hrxlen - hdiff hsame
  rw [← hrxlen] at hlen
  obtain ⟨-, -, hbadSync, hbadSum, -⟩ := parseLoadRejects u
  obtain rfl | hpos := Nat.eq_zero_or_pos k
  · rw [hsync] at hdiff
    exact ⟨_, hbadSync hlen hdiff, rfl, fun _ => rfl, by omega⟩
  · have hne := sumMod256_ne_of_one_byte hsum (by omega) (by omega) hdiff hsame
    exact ⟨_, hbadSum hlen ((hsame 0 (by omega)).trans hsync) hne, rfl, by omega, fun _ => rfl⟩

/-- Settles O59: the delimiters are covered by their own checks, the length field by the comparison with RXLEN, and
every other byte by the checksum. -/
theorem corruptedMeterFrameIsRejected : Obligations.CorruptedMeterFrameIsRejected := by
  intro s u k ⟨hmin, hmax, hsof, heof, hfield, hsum⟩ hk hrxlen hdiff hsame
  rw [← hrxlen] at hmin hmax heof hfield hsum hk ⊢
  obtain ⟨-, -, hrejects, -⟩ := parseMeterRejects u
  obtain ⟨hbadSof, hbadEof, hbadField, hbadSum⟩ := hrejects hmin hmax
  have hsof' (h : k ≠ 0) : u.rxbuf.read 0 = 0x7B#8 := (hsame 0 h.symm).trans hsof
  have heof' (h : k ≠ u.rxlen.toNat - 1) : u.rxbuf.read (u.rxlen.toNat - 1) = 0x7D#8 := (hsame _ h.symm).trans heof
  obtain rfl | rfl | hlenField | ⟨hlo, hhi⟩ :
      k = 0 ∨ k = u.rxlen.toNat - 1 ∨ (k = 1 ∨ k = 2) ∨ (3 ≤ k ∧ k + 2 ≤ u.rxlen.toNat) := by omega
  · rw [hsof] at hdiff
    exact ⟨_, _, hbadSof hdiff, rfl, rfl, fun _ => rfl, by omega, by omega, by omega⟩
  · rw [heof] at hdiff
    exact ⟨_, _, hbadEof (hsof' (by omega)) hdiff, rfl, rfl, by omega, fun _ => rfl, by omega, by omega⟩
  · have hne : (u.rxbuf.read 1).toNat * 256 + (u.rxbuf.read 2).toNat ≠ u.rxlen.toNat := by
      rw [← hfield]
      obtain rfl | rfl := hlenField
      · rw [hsame 2 (by decide)]
        exact fun h => hdiff (BitVec.eq_of_toNat_eq (by omega))
      · rw [hsame 1 (by decide)]
        exact fun h => hdiff (BitVec.eq_of_toNat_eq (by omega))
    exact ⟨_, _, hbadField (hsof' (by omega)) (heof' (by omega)) hne, rfl, rfl, by omega, by omega, fun _ => rfl,
      by omega⟩
  · have hfield' : (u.rxbuf.read 1).toNat * 256 + (u.rxbuf.read 2).toNat = u.rxlen.toNat := by
      rw [hsame 1 (by omega), hsame 2 (by omega), hfield]
    have hne := sumMod256_ne_of_one_byte hsum (by omega) (by omega) hdiff hsame
    exact ⟨_, _, hbadSum (hsof' (by omega)) (heof' (by omega)) hfield' hne, rfl, rfl, by omega, by omega, by omega,
      fun _ _ => rfl⟩

end Sys2Proof.Machine
end

section
/-! SUPPORT. Exceptions: that every step answers, the two answers to a CMD write, everything a step can do to the flags
that outlive a command, and the obligations of R220 to R230. -/

namespace Sys2Proof.Machine

open Sys2Proof

/-! ### Every step answers -/

theorem engineTurn_next (s : State) : ∃ t, engineTurn s = .next t := by
  unfold engineTurn
  split
  · exact engineStep_next s
  · exact ⟨s, rfl⟩

theorem perform_next (e : Event) (s : State) : ∃ t, perform e s = .next t := by
  cases e with
  | host acc => exact ⟨hostAccess acc s, rfl⟩
  | engine => exact engineTurn_next s
  | tick => exact ⟨clockTick s, rfl⟩
  | reset => exact ⟨resetInput s, rfl⟩

theorem step_next (s : State) : ∃ t, step s = .next t := by
  unfold step
  split
  · exact engineTurn_next s
  · exact perform_next _ _

/-- Settles O5: every command answers a next state, and so does every event a step performs. -/
theorem everyStepAnswersNext : Obligations.EveryStepAnswersNext := ⟨exec_next, step_next⟩

/-! ### The command write and the end of a command -/

theorem writeReg_cmd_busy (w : Word) {s : State} (hbusy : s.status.busy = true) : writeReg .cmd w s = refuseCmd s := by
  simp [writeReg, hbusy]

/-- Settles O7: the write is acceptance or refusal, and its step is that and the bus's answer. -/
theorem commandWriteAcceptedOrRefused : Obligations.CommandWriteAcceptedOrRefused := by
  intro s w es hagenda
  have hwrite : memWrite 0x00C#12 .word w s = some (writeReg .cmd w s) := memWrite_regOffset .cmd w s
  obtain ⟨d, hstep⟩ := writesPerformMemWrite s _ _ _ w es hagenda hwrite
  refine ⟨d, fun hidle => ?_, fun hbusy => ?_⟩
  · rwa [writeReg_cmd_idle w hidle] at hstep
  · rwa [writeReg_cmd_busy w hbusy] at hstep

/-- Settles O8: the two ways to end a command are these records by definition. -/
theorem endOfCommandRecords : Obligations.EndOfCommandRecords := fun _ => ⟨rfl, fun _ => rfl⟩

/-! ### The flags that outlive a command -/

/-- IRQ_EN and DONE are as before, and neither sticky error bit is cleared. -/
structure KeepsFlags (s t : State) : Prop where
  irqEn : t.irqEn = s.irqEn
  done : t.status.done = s.status.done
  busyErr : s.status.busyErr = true → t.status.busyErr = true
  werr : s.status.werr = true → t.status.werr = true

theorem keepsFlags_of_status {s t : State} (hirqEn : t.irqEn = s.irqEn) (hstatus : t.status = s.status) :
    KeepsFlags s t := by
  constructor <;> simp [hirqEn, hstatus]

theorem KeepsFlags.irq_eq {s t : State} (h : KeepsFlags s t) : t.irq = s.irq := by
  rw [State.irq, State.irq, h.irqEn, h.done]

theorem keepsFlags_refuseCmd (s : State) : KeepsFlags s (refuseCmd s) := ⟨rfl, rfl, fun _ => rfl, id⟩

theorem keepsFlags_guardBusy {s t : State} (h : KeepsFlags s t) : KeepsFlags s (guardBusy s t) := by
  unfold guardBusy
  split
  · exact ⟨rfl, rfl, id, fun _ => rfl⟩
  · exact h

/-- Taking the event off the agenda before, and the bus's answer after, touch no flag. -/
theorem KeepsFlags.answered {s u : State} (h : KeepsFlags (popAgenda s) u) (e : Bool) (d : Word) :
    KeepsFlags s (respond e d u) :=
  { h with }

/-- Of the registers only CTRL, STATUS and CMD have a write that moves IRQ_EN or DONE or clears a sticky bit (R26, R27,
R221). -/
theorem writeReg_keepsFlags {r : Reg} (hctrl : r ≠ .ctrl) (hstatus : r ≠ .status) (hcmd : r ≠ .cmd) (v : Word)
    (s : State) : KeepsFlags s (writeReg r v s) := by
  cases r with
  | ctrl => exact absurd rfl hctrl
  | status => exact absurd rfl hstatus
  | cmd => exact absurd rfl hcmd
  | id | fault | rawLo | rawHi | dvalLo | dvalHi | cks | retryCnt | result => exact keepsFlags_of_status rfl rfl
  | codecCfg | scale | valueLo | valueHi | cksCfg | addr | oplen | txlen | rxlen | linkCfg | parseCfg =>
    exact keepsFlags_guardBusy (keepsFlags_of_status rfl rfl)

/-- The next event is a host write of `v` to the register `r`. -/
def NextWrite (s : State) (r : Reg) (v : Word) : Prop :=
  s.env.agenda.head? = some (.host (.write (regOffset r) .word v))

/-- Everything a step that is no reset can do to IRQ_EN, DONE and the sticky bits: a constructor for each event that
can raise or lower one (R221, R223, R224, R229, R230). -/
inductive FlagStep (s t : State) : Prop
  | kept (h : KeepsFlags s t)
  | ctrlWrite (v : Word) (hw : NextWrite s .ctrl v) (hirqEn : t.irqEn = v.getLsbD 0) (hstatus : t.status = s.status)
  | statusWrite (v : Word) (hw : NextWrite s .status v) (hirqEn : t.irqEn = s.irqEn)
      (hstatus : t.status = writeOneToClear v s.status)
  | accepted (v : Word) (hw : NextWrite s .cmd v) (hidle : s.status.busy = false) (hirqEn : t.irqEn = s.irqEn)
      (hstatus : t.status = s.status.accepted)
  | commandEnd (he : EngineNext s) (hbusy : s.status.busy = true) (hend : Ended t) (hirqEn : t.irqEn = s.irqEn)
      (hbusyErr : t.status.busyErr = s.status.busyErr) (hwerr : t.status.werr = s.status.werr)

theorem writeReg_flagStep {s : State} {r : Reg} {v : Word} (hw : NextWrite s r v) (e : Bool) (d : Word) :
    FlagStep s (respond e d (writeReg r v (popAgenda s))) := by
  by_cases hctrl : r = .ctrl
  · subst hctrl
    exact .ctrlWrite v hw rfl rfl
  by_cases hstatus : r = .status
  · subst hstatus
    exact .statusWrite v hw rfl rfl
  by_cases hcmd : r = .cmd
  · subst hcmd
    cases hb : s.status.busy with
    | true =>
      rw [writeReg_cmd_busy v (s := popAgenda s) hb]
      exact .kept ((keepsFlags_refuseCmd _).answered e d)
    | false =>
      rw [writeReg_cmd_idle v (s := popAgenda s) hb]
      exact .accepted v hw hb rfl rfl
  exact .kept ((writeReg_keepsFlags hctrl hstatus hcmd v _).answered e d)

theorem hostAccess_flagStep {s : State} {acc : Access} (hacc : s.env.agenda.head? = some (.host acc)) :
    FlagStep s (hostAccess acc (popAgenda s)) := by
  obtain ⟨e, d, hresp⟩ | ⟨a, n, v, u, rfl, hu, hresp⟩ := hostAccess_cases acc (popAgenda s)
  · rw [hresp]
    exact .kept (keepsFlags_of_status rfl rfl)
  rw [hresp]
  obtain rfl | ⟨r, htarget, rfl⟩ | ⟨b, i, -, rfl⟩ := memWrite_cases hu
  · exact .kept (keepsFlags_of_status rfl rfl)
  · obtain ⟨rfl, rfl⟩ := busTarget_csr htarget
    exact writeReg_flagStep hacc false 0#32
  · have hbuffer (m : Memory) : KeepsFlags (popAgenda s) ((popAgenda s).setBuffer b m) :=
      keepsFlags_of_status (setBuffer_irqEn _ b m) (setBuffer_status _ b m)
    exact .kept ((keepsFlags_guardBusy (hbuffer _)).answered false 0#32)

/-- An engine step that does not end the command keeps DONE, and none touches what the host alone clears. -/
theorem engineStep_flagStep {s t : State} (he : EngineNext s) (hb : s.status.busy = true)
    (h : engineStep (popAgenda s) = .next t) : FlagStep s t := by
  obtain ⟨hirqEn, -, -, -, -, -, -, -, -, -, -, hbusyErr, hwerr, -⟩ := engineStep_sameHostState h
  obtain hend | ⟨-, hdone, -⟩ := engineStep_endedOrGoesOn h
  · exact .commandEnd he hb hend hirqEn hbusyErr hwerr
  · exact .kept ⟨hirqEn, hdone, hbusyErr.trans, hwerr.trans⟩

theorem step_flagStep {s t : State} (hno : NoReset s) (h : step s = .next t) : FlagStep s t := by
  obtain ⟨acc, hacc, rfl⟩ | ⟨-, rfl⟩ | ⟨hr, -⟩ | ⟨he, hturn⟩ := step_cases h
  · exact hostAccess_flagStep hacc
  · exact .kept (keepsFlags_of_status rfl rfl)
  · exact absurd hr hno
  · obtain ⟨-, rfl⟩ | ⟨hb, hs⟩ := engineTurn_cases hturn
    · exact .kept (keepsFlags_of_status rfl rfl)
    · exact engineStep_flagStep he hb hs

/-- The sticky bits have one way down, a W1C write to STATUS (R229). -/
theorem FlagStep.statusWrite_or_sticky {s t : State} (h : FlagStep s t) :
    (∃ v, NextWrite s .status v ∧ t.status = writeOneToClear v s.status) ∨
    ((s.status.busyErr = true → t.status.busyErr = true) ∧ (s.status.werr = true → t.status.werr = true)) := by
  cases h with
  | kept hk => exact .inr ⟨hk.busyErr, hk.werr⟩
  | ctrlWrite _ _ _ hstatus => exact .inr (by simp [hstatus])
  | statusWrite v hw _ hstatus => exact .inl ⟨v, hw, hstatus⟩
  | accepted _ _ _ _ hstatus => exact .inr (by simp [hstatus])
  | commandEnd _ _ _ _ hbusyErr hwerr => exact .inr ⟨hbusyErr.trans, hwerr.trans⟩

/-- Settles O26: where a sticky bit is cleared, the STATUS write that clears it has a 1 in its place. -/
theorem stickyBitsClearedOnlyByHost : Obligations.StickyBitsClearedOnlyByHost := by
  intro s t hno h
  obtain ⟨v, hw, hstatus⟩ | ⟨hbusyErr, hwerr⟩ := (step_flagStep hno h).statusWrite_or_sticky
  · exact ⟨fun hset hclear => ⟨v, hw, by simpa [hstatus, hset] using hclear⟩,
      fun hset hclear => ⟨v, hw, by simpa [hstatus, hset] using hclear⟩⟩
  · exact ⟨fun hset hclear => by simp [hbusyErr hset] at hclear, fun hset hclear => by simp [hwerr hset] at hclear⟩

/-! ### The interrupt output -/

theorem irq_eq_true_iff (s : State) : s.irq = true ↔ s.irqEn = true ∧ s.status.done = true := by
  rw [State.irq, Bool.and_eq_true]

theorem FlagStep.irq_rises {s t : State} (h : FlagStep s t) (hlow : s.irq = false) (hhigh : t.irq = true) :
    (EngineNext s ∧ s.status.busy = true ∧ t.status.busy = false ∧ s.irqEn = true) ∨
    ∃ v, NextWrite s .ctrl v ∧ v.getLsbD 0 = true ∧ s.status.done = true := by
  obtain ⟨henabled, hdone⟩ := (irq_eq_true_iff t).1 hhigh
  cases h with
  | kept hk => simp [hk.irq_eq, hlow] at hhigh
  | ctrlWrite v hw hirqEn hstatus => exact .inr ⟨v, hw, hirqEn ▸ henabled, hstatus ▸ hdone⟩
  | statusWrite v _ hirqEn hstatus =>
    rw [hstatus, writeOneToClear_done, Bool.and_eq_true] at hdone
    simp [State.irq, ← hirqEn, henabled, hdone] at hlow
  | accepted _ _ _ _ hstatus => simp [hstatus] at hdone
  | commandEnd he hb hend hirqEn _ _ =>
    obtain ⟨hidle, -, -⟩ := hend
    exact .inl ⟨he, hb, hidle, hirqEn ▸ henabled⟩

theorem FlagStep.irq_falls {s t : State} (h : FlagStep s t) (hhigh : s.irq = true) (hlow : t.irq = false) :
    (∃ v, NextWrite s .status v ∧ v.getLsbD 1 = true) ∨ (∃ v, NextWrite s .cmd v ∧ s.status.busy = false) ∨
    ∃ v, NextWrite s .ctrl v ∧ v.getLsbD 0 = false := by
  obtain ⟨henabled, hdone⟩ := (irq_eq_true_iff s).1 hhigh
  cases h with
  | kept hk => simp [hk.irq_eq, hhigh] at hlow
  | ctrlWrite v hw hirqEn hstatus =>
    exact .inr (.inr ⟨v, hw, by simpa [State.irq, hirqEn, hstatus, hdone] using hlow⟩)
  | statusWrite v hw hirqEn hstatus =>
    exact .inl ⟨v, hw, by simpa [State.irq, hirqEn, hstatus, henabled, hdone] using hlow⟩
  | accepted v hw hidle _ _ => exact .inr (.inl ⟨v, hw, hidle⟩)
  | commandEnd _ _ hend hirqEn _ _ =>
    obtain ⟨-, hdone', -⟩ := hend
    simp [State.irq, hirqEn, henabled, hdone'] at hlow

/-- Settles O27: each way `irq` moves is one of the events that move the flags. -/
theorem irqRisesAndFalls : Obligations.IrqRisesAndFalls := by
  intro s t hno h
  have hflags := step_flagStep hno h
  refine ⟨hflags.irq_rises, fun hhigh hlow => ?_⟩
  obtain ⟨v, hw, hbit⟩ | ⟨v, hw, hidle⟩ | ⟨v, hw, hbit⟩ := hflags.irq_falls hhigh hlow
  · exact ⟨_, v, hw, .inl ⟨rfl, hbit⟩⟩
  · exact ⟨_, v, hw, .inr (.inl ⟨rfl, hidle⟩)⟩
  · exact ⟨_, v, hw, .inr (.inr ⟨rfl, hbit⟩)⟩

end Sys2Proof.Machine
end

section
/-! SUPPORT. Reset: the step of a reset event, what the registers and the buffers read afterwards, and the obligation
on R250, R251 and R253. -/

namespace Sys2Proof.Machine

open Sys2Proof

/-- The step of a scheduled reset, on the state with the event taken off the agenda (R85, R250). -/
theorem step_reset {s : State} {es : List Event} (h : s.env.agenda = .reset :: es) :
    step s = .next (resetInput (withAgenda es s)) := by
  simp only [step, h, perform]

/-- Nothing of the earlier state is left in a register: the outside world, which reset keeps, is read by none. -/
theorem readReg_resetInput (r : Reg) (s : State) : readReg r (resetInput s) = readReg r State.reset := rfl

theorem buffer_resetInput (b : BufId) (s : State) : (resetInput s).buffer b = [] := by
  cases b with
  | stage | txbuf | rxbuf => rfl

/-- `baud_sel` comes from the reset LINK_CFG, which is 0 (R54, R57). -/
theorem baudSel_resetInput (s : State) : (resetInput s).baudSel = 0#3 := by
  have hlinkCfg : (resetInput s).linkCfg = 0#19 := rfl
  simp only [State.baudSel, hlinkCfg, BitVec.extractLsb'_zero]

/-- Settles O18: the registers by the table of R54, the ones with a reset value other than 0 first; the buffers because
an empty list of cells reads 0x00 everywhere. -/
theorem resetSetsEveryRegister : Obligations.ResetSetsEveryRegister := by
  intro s es hagenda
  refine ⟨_, step_reset hagenda, fun r => ?register, fun b i => ?byte, rfl, rfl, rfl, rfl, baudSel_resetInput _, rfl⟩
  case register =>
    rw [readReg_resetInput]
    cases r with
    | id | codecCfg | scale | parseCfg | result => rfl
    | ctrl | status | cmd | fault | valueLo | valueHi | rawLo | rawHi | dvalLo | dvalHi | cksCfg | cks | addr | oplen
    | txlen | rxlen | linkCfg | retryCnt => rfl
  case byte => rw [buffer_resetInput, Memory.read_nil]

end Sys2Proof.Machine
end
